-- ==== Sys2Proof/Word.lean ====
section
/-! DEFINITION. The word types of the KQ9 and their plainest arithmetic (R7, R9). -/

namespace Sys2Proof

/-- A scalar register value (R30). -/
abbrev Word := BitVec 64

/-- One byte of memory (R7). -/
abbrev Byte := BitVec 8

/-- Bits [lo+len-1 : lo] of a number, zero-extended (R7, R9). -/
def bits (x lo len : Nat) : Nat := x / 2 ^ lo % 2 ^ len

/-- Bit n of a number (R7). -/
def bit (x n : Nat) : Bool := bits x n 1 == 1

/-- The two's-complement value of the low n bits of x (SignExtend of R9). -/
def signed (x n : Nat) : Int :=
  if x % 2 ^ n < 2 ^ (n - 1) then (x % 2 ^ n : Nat) else (x % 2 ^ n : Nat) - (2 ^ n : Nat)

/-- The low n bits of an integer in two's complement. -/
def lowBits (x : Int) (n : Nat) : Nat := (x % (2 ^ n : Nat)).toNat

/-- x with bits [lo+len-1 : lo] replaced by v. -/
def setBits (x lo len v : Nat) : Nat :=
  x % 2 ^ lo + 2 ^ lo * (v % 2 ^ len) + 2 ^ (lo + len) * (x / 2 ^ (lo + len))

end Sys2Proof
end

