-- ==== Sys2Proof/Machine/Numbers.lean ====
section
/-! DEFINITION. Numbers and arithmetic (R116 to R144, R465): formats, exact values, rounding,
conversions, and the floating operations on one lane. Flags are bits of SR.FLAGS (R144). -/

namespace Sys2Proof.Machine

/-- The sticky flags by bit (R144). -/
def flagInvalid : BitVec 7 := 0x01
def flagDivzero : BitVec 7 := 0x02
def flagOverflow : BitVec 7 := 0x04
def flagUnderflow : BitVec 7 := 0x08
def flagInexact : BitVec 7 := 0x10
def flagSat : BitVec 7 := 0x20
def flagSnf : BitVec 7 := 0x40

/-- The flag f where the condition holds. -/
def flagIf (c : Bool) (f : BitVec 7) : BitVec 7 := if c then f else 0

/-! ## Formats (R117, R118) -/

/-- What the all-ones exponent encodes (R117): infinities and NaNs, the one NaN of f8e4, or numbers. -/
inductive Specials where
  | ieee
  | oneNaN
  | none
  deriving DecidableEq, Repr

/-- A floating format: the widths of E and M, the bias, and its specials (R117). -/
structure FloatFmt where
  ebits : Nat
  mbits : Nat
  bias : Nat
  specials : Specials
  deriving DecidableEq, Repr

def f32 : FloatFmt := ⟨8, 23, 127, .ieee⟩
def bf16 : FloatFmt := ⟨8, 7, 127, .ieee⟩
def f16 : FloatFmt := ⟨5, 10, 15, .ieee⟩
def f8e4 : FloatFmt := ⟨4, 3, 7, .oneNaN⟩
def f8e5 : FloatFmt := ⟨5, 2, 15, .ieee⟩
def f6 : FloatFmt := ⟨3, 2, 3, .none⟩
def f4 : FloatFmt := ⟨2, 1, 1, .none⟩

/-- The width of a floating format in bits. -/
def FloatFmt.width (f : FloatFmt) : Nat := 1 + f.ebits + f.mbits

/-- An element format (R117, R118): floating, integer of a width and sign, or a64. -/
inductive Fmt where
  | float (f : FloatFmt)
  | int (width : Nat) (sgn : Bool)
  | a64
  deriving DecidableEq, Repr

/-- The format of a four-bit format code (R117, R118); 0xF is reserved. -/
def fmtOfCode (c : Nat) : Option Fmt :=
  match c with
  | 0x0 => some (.float f32)
  | 0x1 => some (.float bf16)
  | 0x2 => some (.float f16)
  | 0x3 => some (.float f8e4)
  | 0x4 => some (.float f8e5)
  | 0x5 => some (.float f6)
  | 0x6 => some (.float f4)
  | 0x7 => some (.int 4 true)
  | 0x8 => some (.int 8 true)
  | 0x9 => some (.int 16 true)
  | 0xA => some (.int 32 true)
  | 0xB => some (.int 8 false)
  | 0xC => some (.int 16 false)
  | 0xD => some (.int 32 false)
  | 0xE => some .a64
  | _ => none

/-- The width of an element in bits. -/
def Fmt.width : Fmt → Nat
  | .float f => f.width
  | .int w _ => w
  | .a64 => 64

/-- The format of a V type or U wide field (R120). -/
def wideFmt (ty : Nat) : Fmt :=
  if ty = 0 then .float f32 else if ty = 1 then .float bf16 else if ty = 2 then .float f16 else .int 32 true

/-- The descriptor code of a U narrow field (R120): f8e4, f8e5, f6, f4, s8, n8, s4. -/
def narrowCode (m : Nat) : Nat :=
  match m with
  | 0 => 0x3
  | 1 => 0x4
  | 2 => 0x5
  | 3 => 0x6
  | 4 => 0x8
  | 5 => 0xB
  | _ => 0x7

/-! ## Values -/

/-- The value of a floating element: a NaN (its sign, whether it signals), an infinity, or the number
(-1)^neg * mag * 2^exp. -/
inductive FVal where
  | nan (neg signalling : Bool)
  | inf (neg : Bool)
  | num (neg : Bool) (mag : Nat) (exp : Int)
  deriving DecidableEq, Repr

/-- The value that an encoding stands for (R117). -/
def FloatFmt.value (f : FloatFmt) (x : Nat) : FVal :=
  let neg := bit x (f.ebits + f.mbits)
  let e := bits x f.mbits f.ebits
  let m := bits x 0 f.mbits
  let ones := 2 ^ f.ebits - 1
  let number : FVal :=
    if e = 0 then .num neg m (1 - (f.bias : Int) - f.mbits)
    else .num neg (2 ^ f.mbits + m) ((e : Int) - f.bias - f.mbits)
  match f.specials with
  | .none => number
  | .oneNaN => if e = ones ∧ m = 2 ^ f.mbits - 1 then .nan neg false else number
  | .ieee =>
    if e = ones then
      (if m = 0 then .inf neg else .nan neg (!bit m (f.mbits - 1)))
    else number

def FVal.isNan : FVal → Bool
  | .nan _ _ => true
  | _ => false

def FVal.isSignalling : FVal → Bool
  | .nan _ s => s
  | _ => false

def FVal.neg : FVal → Bool
  | .nan n _ => n
  | .inf n => n
  | .num n _ _ => n

/-- The value with its sign inverted. -/
def FVal.negate : FVal → FVal
  | .nan n s => .nan (!n) s
  | .inf n => .inf (!n)
  | .num n m e => .num (!n) m e

def FVal.isZero : FVal → Bool
  | .num _ m _ => m == 0
  | _ => false

/-- The canonical quiet NaN of a format (R124). -/
def FloatFmt.canonicalNaN (f : FloatFmt) : Nat :=
  match f.specials with
  | .oneNaN => (2 ^ f.ebits - 1) * 2 ^ f.mbits + (2 ^ f.mbits - 1)
  | _ => (2 ^ f.ebits - 1) * 2 ^ f.mbits + 2 ^ (f.mbits - 1)

/-- The sign bit of a format. -/
def FloatFmt.signBit (f : FloatFmt) (neg : Bool) : Nat := if neg then 2 ^ (f.ebits + f.mbits) else 0

def FloatFmt.infinity (f : FloatFmt) (neg : Bool) : Nat := f.signBit neg + (2 ^ f.ebits - 1) * 2 ^ f.mbits

def FloatFmt.zero (f : FloatFmt) (neg : Bool) : Nat := f.signBit neg

/-- The encoding of the largest finite magnitude (R117). -/
def FloatFmt.largestCode (f : FloatFmt) : Nat :=
  match f.specials with
  | .ieee => (2 ^ f.ebits - 2) * 2 ^ f.mbits + (2 ^ f.mbits - 1)
  | .oneNaN => (2 ^ f.ebits - 1) * 2 ^ f.mbits + (2 ^ f.mbits - 2)
  | .none => (2 ^ f.ebits - 1) * 2 ^ f.mbits + (2 ^ f.mbits - 1)

def FloatFmt.largest (f : FloatFmt) (neg : Bool) : Nat := f.signBit neg + f.largestCode

/-! ## Exact values and rounding (R121) -/

/-- An exact real: (-1)^neg * num / den * 2^exp, den positive. -/
structure Exact where
  neg : Bool
  num : Nat
  den : Nat
  exp : Int
  deriving DecidableEq, Repr

/-- The number of a finite value. -/
def Exact.ofNum (neg : Bool) (mag : Nat) (exp : Int) : Exact := ⟨neg, mag, 1, exp⟩

/-- An integer. -/
def Exact.ofInt (n : Int) : Exact := ⟨decide (n < 0), n.natAbs, 1, 0⟩

/-- Floor(Log2(n / d)) for positive n and d. -/
def floorLog2Ratio (n d : Nat) : Int :=
  let l : Int := (Nat.log2 n : Int) - Nat.log2 d
  if d * 2 ^ l.toNat ≤ n * 2 ^ (-l).toNat then l else l - 1

/-- Floor(Log2(|x|)) of a nonzero value. -/
def Exact.floorLog2 (x : Exact) : Int := floorLog2Ratio x.num x.den + x.exp

/-- The magnitude of x in units of 2^q, as a quotient (numerator, denominator). -/
def Exact.scaled (x : Exact) (q : Int) : Nat × Nat :=
  let s := x.exp - q
  (x.num * 2 ^ s.toNat, x.den * 2 ^ (-s).toNat)

/-- The rounding modes by their codes (R122). -/
inductive Rnd where
  | rn
  | rz
  | ru
  | rd
  | ro
  deriving DecidableEq, Repr

/-- The mode of a rounding field (R122); 5 to 7 are refused before they are read. -/
def Rnd.ofCode (c : Nat) : Rnd :=
  match c with
  | 0 => .rn
  | 1 => .rz
  | 2 => .ru
  | 3 => .rd
  | _ => .ro

/-- The rounded quotient n / d of a value of sign neg, and whether it is exact (R121 with q = 1): the
magnitude of the result. -/
def roundQuotient (mode : Rnd) (neg : Bool) (n d : Nat) : Nat × Bool :=
  let lo := n / d
  let r := n % d
  if r = 0 then (lo, true)
  else
    let up : Bool :=
      match mode with
      | .rn => decide (d < 2 * r) || (2 * r == d && lo % 2 == 1)
      | .rz => false
      | .ru => !neg
      | .rd => neg
      | .ro => lo % 2 == 0
    (if up then lo + 1 else lo, false)

/-- A rounded value: |y| = mag * 2^exp, and whether it equals x. -/
structure Rounded where
  mag : Nat
  exp : Int
  exact : Bool
  deriving DecidableEq, Repr

/-- Round(x, mode) for a significand of p bits and a bias (R121), of a nonzero x. -/
def roundTo (p bias : Nat) (mode : Rnd) (x : Exact) : Rounded :=
  let e := max x.floorLog2 (1 - (bias : Int))
  let q := e - p + 1
  let (n, d) := x.scaled q
  let (m, ex) := roundQuotient mode x.neg n d
  ⟨m, q, ex⟩

/-- Round(x, mode) to a format. -/
def FloatFmt.round (f : FloatFmt) (mode : Rnd) (x : Exact) : Rounded := roundTo (f.mbits + 1) f.bias mode x

/-- The encoding of a magnitude mag * 2^exp on the grid of the format, within its range. -/
def FloatFmt.encodeMag (f : FloatFmt) (mag : Nat) (exp : Int) : Nat :=
  let p := f.mbits + 1
  let (mag, exp) := if mag = 2 ^ p then (2 ^ (p - 1), exp + 1) else (mag, exp)
  if mag < 2 ^ f.mbits then mag
  else (exp + f.mbits + f.bias).toNat * 2 ^ f.mbits + (mag - 2 ^ f.mbits)

/-- Whether a rounded magnitude exceeds the largest finite value. -/
def FloatFmt.beyond (f : FloatFmt) (r : Rounded) : Bool :=
  match f.value f.largestCode with
  | .num _ m e =>
    let s := r.exp - e
    decide (m * 2 ^ (-s).toNat < r.mag * 2 ^ s.toNat)
  | _ => false

/-- Whether |x| is below the smallest normal of the format, for nonzero x. -/
def FloatFmt.tiny (f : FloatFmt) (x : Exact) : Bool := decide (x.floorLog2 < 1 - (f.bias : Int))

/-- A result with its flags. -/
abbrev Result := Nat × BitVec 7

/-- The result of an arithmetic operation with the exact nonzero value x (R124). -/
def FloatFmt.arith (f : FloatFmt) (mode : Rnd) (x : Exact) : Result :=
  let r := f.round mode x
  if f.beyond r then
    let toInf : Bool :=
      match mode with
      | .rn => true
      | .rz => false
      | .ru => !x.neg
      | .rd => x.neg
      | .ro => false
    (if toInf then f.infinity x.neg else f.largest x.neg, flagOverflow ||| flagInexact)
  else
    (f.signBit x.neg + f.encodeMag r.mag r.exp,
      flagIf (!r.exact) flagInexact ||| flagIf (!r.exact && f.tiny x) flagUnderflow)

/-- The result of a narrowing conversion of the exact nonzero value x (R125). -/
def FloatFmt.narrow (f : FloatFmt) (mode : Rnd) (x : Exact) : Result :=
  let r := f.round mode x
  if f.beyond r then (f.largest x.neg, flagSat ||| flagInexact)
  else
    (f.signBit x.neg + f.encodeMag r.mag r.exp,
      flagIf (!r.exact) flagInexact ||| flagIf (!r.exact && f.tiny x) flagUnderflow)

/-- The quiet NaN of a sign that a conversion writes, with the top M bit only set, and f8e4's own (R125). -/
def FloatFmt.quietNaN (f : FloatFmt) (neg : Bool) : Nat := f.signBit neg + f.canonicalNaN

/-- An infinity converted to a format (R125). -/
def FloatFmt.narrowInf (f : FloatFmt) (neg : Bool) : Result :=
  match f.specials with
  | .ieee => (f.infinity neg, 0)
  | _ => (f.largest neg, flagSat ||| flagInexact)

/-- A NaN converted to a format (R125). -/
def FloatFmt.narrowNaN (f : FloatFmt) (neg signalling : Bool) : Result :=
  match f.specials with
  | .none => (0, flagInvalid)
  | _ => (f.quietNaN neg, flagIf signalling flagInvalid)

/-- A value converted to a floating format (R125; R126 where it is exact). -/
def FloatFmt.convert (f : FloatFmt) (mode : Rnd) (v : FVal) : Result :=
  match v with
  | .nan n s => f.narrowNaN n s
  | .inf n => f.narrowInf n
  | .num n m e => if m = 0 then (f.zero n, 0) else f.narrow mode (.ofNum n m e)

/-- The least and greatest integer of an integer format. -/
def intBounds (w : Nat) (sgn : Bool) : Int × Int :=
  if sgn then (-(2 ^ (w - 1) : Nat), (2 ^ (w - 1) : Nat) - 1) else (0, (2 ^ w : Nat) - 1)

/-- An exact value rounded to an integer (R121 with q = 1), and whether it is exact. -/
def Exact.toInt (mode : Rnd) (x : Exact) : Int × Bool :=
  let (n, d) := x.scaled 0
  let (m, ex) := roundQuotient mode x.neg n d
  (if x.neg then -(m : Int) else m, ex)

/-- An exact value converted to an integer format with saturation (R126). -/
def intConvertExact (w : Nat) (sgn : Bool) (mode : Rnd) (x : Exact) : Int × BitVec 7 :=
  let (lo, hi) := intBounds w sgn
  let (y, ex) := x.toInt mode
  if y < lo then (lo, flagSat ||| flagInexact)
  else if hi < y then (hi, flagSat ||| flagInexact)
  else (y, flagIf (!ex) flagInexact)

/-- A value converted to an integer format (R126). -/
def intConvert (w : Nat) (sgn : Bool) (mode : Rnd) (v : FVal) : Int × BitVec 7 :=
  match v with
  | .nan _ _ => (0, flagInvalid)
  | .inf n =>
    let (lo, hi) := intBounds w sgn
    (if n then lo else hi, flagSat ||| flagInexact)
  | .num n m e => intConvertExact w sgn mode (.ofNum n m e)

/-- An integer converted to a floating format (R126). -/
def FloatFmt.ofInt (f : FloatFmt) (mode : Rnd) (n : Int) : Result :=
  if n = 0 then (0, 0) else f.narrow mode (.ofInt n)

/-! ## The floating operations of one lane (R124) -/

/-- The exact sum of two finite values. -/
def addExact (n1 : Bool) (m1 : Nat) (e1 : Int) (n2 : Bool) (m2 : Nat) (e2 : Int) : Exact :=
  let e := min e1 e2
  let a : Int := (m1 * 2 ^ (e1 - e).toNat : Nat)
  let b : Int := (m2 * 2 ^ (e2 - e).toNat : Nat)
  let s := (if n1 then -a else a) + (if n2 then -b else b)
  ⟨decide (s < 0), s.natAbs, 1, e⟩

/-- Whether an operand of a list signals. -/
def anySignalling (l : List FVal) : BitVec 7 := flagIf (l.any FVal.isSignalling) flagInvalid

/-- The sum of two values rounded to a format (R124). -/
def FloatFmt.add (f : FloatFmt) (mode : Rnd) (a b : FVal) : Result :=
  if a.isNan || b.isNan then (f.canonicalNaN, anySignalling [a, b])
  else
    match a, b with
    | .inf n, .inf n' => if n = n' then (f.infinity n, 0) else (f.canonicalNaN, flagInvalid)
    | .inf n, _ => (f.infinity n, 0)
    | _, .inf n => (f.infinity n, 0)
    | .num n1 m1 e1, .num n2 m2 e2 =>
      let s := addExact n1 m1 e1 n2 m2 e2
      if s.num = 0 then
        (if m1 = 0 ∧ m2 = 0 ∧ n1 = n2 then f.zero n1 else f.zero (mode == .rd), 0)
      else f.arith mode s
    | _, _ => (f.canonicalNaN, 0)

/-- The exact product of two values (R124): a NaN where an operand is one, or for 0 * Inf, with the flags. -/
def mulExact (a b : FVal) : FVal × BitVec 7 :=
  if a.isNan || b.isNan then (.nan false false, anySignalling [a, b])
  else
    match a, b with
    | .num n1 m1 e1, .num n2 m2 e2 => (.num (n1 != n2) (m1 * m2) (e1 + e2), 0)
    | a, b =>
      if a.isZero || b.isZero then (.nan false false, flagInvalid)
      else (.inf (a.neg != b.neg), 0)

/-- A value rounded to a format as an arithmetic result; NaNs canonical. -/
def FloatFmt.roundVal (f : FloatFmt) (mode : Rnd) (v : FVal) : Result :=
  match v with
  | .nan _ _ => (f.canonicalNaN, 0)
  | .inf n => (f.infinity n, 0)
  | .num n m e => if m = 0 then (f.zero n, 0) else f.arith mode (.ofNum n m e)

/-- The product of two values rounded to a format (R124). -/
def FloatFmt.mul (f : FloatFmt) (mode : Rnd) (a b : FVal) : Result :=
  let (p, fl) := mulExact a b
  let (r, fl') := f.roundVal mode p
  (r, fl ||| fl')

/-- The fused p + c of an exact product (R359): one rounding. -/
def FloatFmt.fused (f : FloatFmt) (mode : Rnd) (a b c : FVal) : Result :=
  let (p, fl) := mulExact a b
  let (r, fl') := f.add mode p c
  (r, fl ||| fl')

/-! ## Reciprocal, root, exponential, logarithm (R140 to R143, R465) -/

/-- The integer square root, one bit at a time from bit k down. -/
def isqrtFrom (n : Nat) : Nat → Nat → Nat
  | 0, r => r
  | k + 1, r =>
    let t := r + 2 ^ k
    isqrtFrom n k (if t * t ≤ n then t else r)

/-- Floor of the square root. -/
def isqrt (n : Nat) : Nat := isqrtFrom n (Nat.log2 n / 2 + 1) 0

/-- The seed result k * 2^q of RCP and RSQ in f32 (R465). -/
def seedResult (neg : Bool) (k : Nat) (q : Int) (exact tiny : Bool) : Result :=
  if decide (2 ^ 128 ≤ k * 2 ^ q.toNat / 2 ^ (-q).toNat) then
    (f32.infinity neg, flagOverflow ||| flagInexact)
  else
    -- k has at most 13 bits: a multiple of 2^-149 with at most 24 significant bits
    let r := if k = 0 then ⟨0, 0, true⟩ else f32.round .rn (.ofNum neg k q)
    (f32.signBit neg + f32.encodeMag r.mag r.exp,
      flagIf (!exact) flagInexact ||| flagIf (!exact && tiny) flagUnderflow)

/-- RCP of an f32 value (R140, R465). -/
def rcp32 (v : FVal) : Result :=
  match v with
  | .nan _ s => (f32.canonicalNaN, flagIf s flagInvalid)
  | .inf n => (f32.zero n, 0)
  | .num n m e =>
    if m = 0 then (f32.infinity n, flagDivzero)
    else
      let x : Exact := ⟨n, 1, m, -e⟩
      let l := x.floorLog2
      let q := max (l - 11) (-149)
      let (a, d) := x.scaled q
      let (k, ex) := roundQuotient .rn false a d
      seedResult n k q ex (decide (l < -126))

/-- RSQ of an f32 value (R140, R465). -/
def rsq32 (v : FVal) : Result :=
  match v with
  | .nan _ s => (f32.canonicalNaN, flagIf s flagInvalid)
  | .inf n => if n then (f32.canonicalNaN, flagInvalid) else (f32.zero false, 0)
  | .num n m e =>
    if m = 0 then (f32.infinity n, flagDivzero)
    else if n then (f32.canonicalNaN, flagInvalid)
    else
      -- the square of the result is 1 / x
      let x : Exact := ⟨false, 1, m, -e⟩
      let l := x.floorLog2 / 2
      let q := max (l - 11) (-149)
      let (a, d) := x.scaled (2 * q)
      let k := isqrt (a / d)
      let exact := k * k * d == a
      -- nearest, a tie to even: compare the square with (k + 1/2)^2
      let h := (2 * k + 1) * (2 * k + 1) * d
      let up := decide (h < 4 * a) || (h == 4 * a && k % 2 == 1)
      seedResult false (if up then k + 1 else k) q exact (decide (l < -126))

/-- The natural logarithm of 2 in units of 2^-256, rounded down. -/
def ln2Fixed : Nat := 80260960185991308862233904206310070533990667611589946606122867505419956976171

/-- The terms of the exponential series from the n-th, t being the n-th term, in units of 2^-256. -/
def expSeries (y : Nat) : Nat → Nat → Nat → Nat
  | 0, _, t => t
  | k + 1, n, t => t + expSeries y k (n + 1) (t * y / 2 ^ 256 / (n + 1))

/-- 2^f in units of 2^-256 for a fraction f in the same units: 64 terms of the series leave an error
below 2^-240. DESIGN CHOICE (log 17). -/
def exp2Fixed (f : Nat) : Nat := expSeries (f * ln2Fixed / 2 ^ 256) 64 0 (2 ^ 256)

/-- The terms z + z^3/3 + z^5/5 + ... from the n-th, p being the n-th power, in units of 2^-256. -/
def atanhSeries (zz : Nat) : Nat → Nat → Nat → Nat
  | 0, _, _ => 0
  | k + 1, n, p => p / (2 * n + 1) + atanhSeries zz k (n + 1) (p * zz / 2 ^ 256)

/-- log2(m / d) in units of 2^-256 for 1 ≤ m / d < 2: ln(x) = 2 atanh((x - 1)/(x + 1)), 96 terms. -/
def log2Fixed (m d : Nat) : Nat :=
  let z := (m - d) * 2 ^ 256 / (m + d)
  2 * atanhSeries (z * z / 2 ^ 256) 96 0 z * 2 ^ 256 / ln2Fixed

/-- A value known to be no number of the format, nor half-way between two, from its approximation in
units of 2^-256: a sticky bit below keeps it off the grid. -/
def Exact.approx (neg : Bool) (n : Nat) (exp : Int) : Exact := ⟨neg, 2 * n + 1, 1, exp - 257⟩

/-- EXP2 of an f32 value (R142, R465): correctly rounded; 2^x is irrational for every x that is no
integer, and is evaluated to 240 bits. -/
def exp232 (v : FVal) : Result :=
  match v with
  | .nan _ s => (f32.canonicalNaN, flagIf s flagInvalid)
  | .inf n => if n then (f32.zero false, 0) else (f32.infinity false, 0)
  | .num n m e =>
    if m = 0 then (f32.ofInt .rn 1).1 |> fun r => (r, 0)
    else
      let x : Exact := .ofNum n m e
      if 7 ≤ x.floorLog2 ∧ !n then (f32.infinity false, flagOverflow ||| flagInexact)
      else if 8 ≤ x.floorLog2 then (f32.zero false, flagUnderflow ||| flagInexact)
      else
        -- x in units of 2^-256, and its floor
        let t : Int := (m * 2 ^ (e + 256).toNat : Nat)
        let t := if n then -t else t
        let k := t / (2 ^ 256 : Nat)
        let f := (t % (2 ^ 256 : Nat)).toNat
        if t < -(150 * 2 ^ 256 : Nat) then (f32.zero false, flagUnderflow ||| flagInexact)
        else if f = 0 then f32.arith .rn (.ofNum false 1 k)
        else f32.arith .rn (.approx false (exp2Fixed f) k)

/-- LOG2 of an f32 value (R142, R465): correctly rounded, by the same argument. -/
def log232 (v : FVal) : Result :=
  match v with
  | .nan _ s => (f32.canonicalNaN, flagIf s flagInvalid)
  | .inf n => if n then (f32.canonicalNaN, flagInvalid) else (f32.infinity false, 0)
  | .num n m e =>
    if m = 0 then (f32.infinity true, flagDivzero)
    else if n then (f32.canonicalNaN, flagInvalid)
    else
      let l := Nat.log2 m
      let k : Int := e + l
      if m = 2 ^ l then f32.ofInt .rn k
      else
        let v : Int := k * (2 ^ 256 : Nat) + (log2Fixed m (2 ^ l) : Nat)
        f32.arith .rn (.approx (decide (v < 0)) v.natAbs 0)

/-- One of the four functions in a lane format: the f32 function of the widened argument, rounded once by
rn to a 16-bit format, with the flags of both steps (R143). -/
def seedLane (f : FloatFmt) (fn : FVal → Result) (x : Nat) : Result :=
  let (r, fl) := fn (f.value x)
  if f = f32 then (r, fl)
  else
    let (y, fl') := f.roundVal .rn (f32.value r)
    (y, fl ||| fl')

/-! ## a64 (R118, R137 to R139) -/

/-- An integer saturated to the range of a64, and whether it was. -/
def satA64 (n : Int) : Int × Bool :=
  let (lo, hi) := intBounds 64 true
  if n < lo then (lo, true) else if hi < n then (hi, true) else (n, false)

/-- The a64 addend of an f32 element for a scale exponent (R137): its value, its mark and the flags. -/
def a64Addend (scale : Int) (x : Nat) : Int × Bool × BitVec 7 :=
  match f32.value x with
  | .nan _ _ => (0, true, flagInvalid)
  | .inf n => ((if n then (intBounds 64 true).1 else (intBounds 64 true).2), true, flagSat ||| flagInexact)
  | .num n m e =>
    let (y, ex) := (Exact.ofNum n m (e - scale)).toInt .rn
    let (z, sat) := satA64 y
    (z, sat, if sat then flagSat ||| flagInexact else flagIf (!ex) flagInexact)

end Sys2Proof.Machine
end

