-- ==== Sys2Proof/Machine/Lanes.lean ====
section
/-! DEFINITION. The lane operations of the vector cascade (R346 to R414): functions of lists of lanes. -/

namespace Sys2Proof.Machine

/-- The lanes of a type (R120): 32 of f32 or s32, 64 of bf16 or f16. -/
def laneCount (ty : Nat) : Nat := if ty = 1 ∨ ty = 2 then 64 else 32

/-- The width of a lane in bits. -/
def laneWidth (ty : Nat) : Nat := if ty = 1 ∨ ty = 2 then 16 else 32

/-- n elements of width w from a little-endian bit string (R119). -/
def unpackElems (w n x : Nat) : List Nat :=
  match n with
  | 0 => []
  | n + 1 => x % 2 ^ w :: unpackElems w n (x / 2 ^ w)

/-- Elements of width w packed without gaps, element 0 lowest (R119). -/
def packElems (w : Nat) : List Nat → Nat
  | [] => 0
  | e :: l => e % 2 ^ w + 2 ^ w * packElems w l

/-- The lanes of a 128-byte value in a type. -/
def lanesOf (ty : Nat) (x : BitVec 1024) : List Nat := unpackElems (laneWidth ty) (laneCount ty) x.toNat

/-- A 128-byte value from its lanes; lanes not given are zero. -/
def ofLanes (ty : Nat) (l : List Nat) : BitVec 1024 := .ofNat 1024 (packElems (laneWidth ty) l)

/-- The floating format of a type (R120); f32 where the type is s32, which no float operation takes. -/
def laneFloat (ty : Nat) : FloatFmt :=
  match wideFmt ty with
  | .float f => f
  | _ => f32

/-- The results and the merged flags of a lane-wise operation (R346). -/
def collect (l : List Result) : List Nat × BitVec 7 :=
  (l.map Prod.fst, l.foldl (fun f r => f ||| r.2) 0)

/-- A unary lane operation. -/
def mapLanes (f : Nat → Result) (a : List Nat) : List Nat × BitVec 7 := collect (a.map f)

/-- A binary lane operation. -/
def zipLanes (f : Nat → Nat → Result) (a b : List Nat) : List Nat × BitVec 7 := collect (List.zipWith f a b)

/-! ## Floating operations -/

/-- FADD and FSUB (R358). -/
def laneAdd (f : FloatFmt) (m : Rnd) (a b : Nat) : Result := f.add m (f.value a) (f.value b)
def laneSub (f : FloatFmt) (m : Rnd) (a b : Nat) : Result := f.add m (f.value a) (f.value b).negate

/-- FMUL (R358). -/
def laneMul (f : FloatFmt) (m : Rnd) (a b : Nat) : Result := f.mul m (f.value a) (f.value b)

/-- FADDF and FSUBF (R359): the inputs of the FMUL and the second input of the fused stage. -/
def laneAddf (f : FloatFmt) (m : Rnd) (a b c : Nat) : Result := f.fused m (f.value a) (f.value b) (f.value c)
def laneSubf (f : FloatFmt) (m : Rnd) (a b c : Nat) : Result :=
  f.fused m (f.value a) (f.value b) (f.value c).negate

/-- The order of two numbers that are no NaN: an integer comparison of the signed magnitudes. -/
def floatLt (a b : FVal) : Bool :=
  match a, b with
  | .inf n, .inf n' => n && !n'
  | .inf n, _ => n
  | _, .inf n => !n
  | .num n1 m1 e1, .num n2 m2 e2 => (addExact n1 m1 e1 (!n2) m2 e2).neg
  | _, _ => false

/-- Equality of two numbers that are no NaN; −0 equals +0 (R360). -/
def floatEq (a b : FVal) : Bool := !floatLt a b && !floatLt b a

/-- FMIN and FMAX (R364): the second argument says which; the result is copied bit for bit. -/
def laneMinMax (f : FloatFmt) (isMax : Bool) (a b : Nat) : Result :=
  let x := f.value a
  let y := f.value b
  let fl := anySignalling [x, y]
  if x.isNan && y.isNan then (f.canonicalNaN, fl)
  else if x.isNan then (b, fl)
  else if y.isNan then (a, fl)
  else
    -- a before b: lesser, or a zero of lesser sign
    let aLess := floatLt x y || (floatEq x y && x.neg && !y.neg)
    (if aLess == isMax then b else a, fl)

/-- FABS, FNEG, FCPS (R357). -/
def laneAbs (f : FloatFmt) (a : Nat) : Result := (a % 2 ^ (f.width - 1), 0)
def laneNeg (f : FloatFmt) (a : Nat) : Result :=
  (a % 2 ^ (f.width - 1) + f.signBit (!bit a (f.width - 1)), 0)
def laneCps (f : FloatFmt) (a b : Nat) : Result :=
  (a % 2 ^ (f.width - 1) + f.signBit (bit b (f.width - 1)), 0)

/-- The condition of FCMP (R360): its truth and flags. -/
def floatCond (f : FloatFmt) (c a b : Nat) : Bool × BitVec 7 :=
  let x := f.value a
  let y := f.value b
  let nan := x.isNan || y.isNan
  let fl := anySignalling [x, y] ||| flagIf (nan && decide (2 ≤ c) && decide (c ≤ 5)) flagInvalid
  (match c with
    | 0 => !nan && floatEq x y
    | 1 => nan || !floatEq x y
    | 2 => !nan && floatLt x y
    | 3 => !nan && (floatLt x y || floatEq x y)
    | 4 => !nan && floatLt y x
    | 5 => !nan && (floatLt y x || floatEq x y)
    | 6 => nan
    | _ => !nan, fl)

/-- FRND (R365). -/
def laneRnd (f : FloatFmt) (m : Rnd) (a : Nat) : Result :=
  match f.value a with
  | .nan _ s => (f.canonicalNaN, flagIf s flagInvalid)
  | .inf _ => (a, 0)
  | .num n mag e =>
    if mag = 0 then (a, 0)
    else
      let (num, den) := (Exact.ofNum n mag e).scaled 0
      let (k, ex) := roundQuotient m n num den
      if ex then (a, 0)
      else if k = 0 then (f.zero n, flagInexact)
      else ((f.roundVal .rn (.num n k 0)).1, flagInexact)

/-! ## Integer operations (R371, R372) -/

/-- The condition of CMP, CMPI and ICMP on w-bit values (R336, R372): eq ne lt le ltn len tst ntst. -/
def intCond (w c a b : Nat) : Bool :=
  let a := a % 2 ^ w
  let b := b % 2 ^ w
  match c with
  | 0 => a == b
  | 1 => a != b
  | 2 => decide (signed a w < signed b w)
  | 3 => decide (signed a w ≤ signed b w)
  | 4 => decide (a < b)
  | 5 => decide (a ≤ b)
  | 6 => a &&& b != 0
  | _ => a &&& b == 0

/-- The s32 operations that give one result lane from two (R371), by opcode. -/
def laneInt (op a b : Nat) : Result :=
  let x : BitVec 32 := .ofNat 32 a
  let y : BitVec 32 := .ofNat 32 b
  let r : BitVec 32 :=
    match op with
    | 0x18 => x + y
    | 0x19 => x - y
    | 0x1A => x * y
    | 0x1B => .ofInt 32 (x.toInt * y.toInt / 2 ^ 32)
    | 0x1C => if x.toInt ≤ y.toInt then x else y
    | 0x1D => if x.toInt ≤ y.toInt then y else x
    | 0x1E => if x.toNat ≤ y.toNat then x else y
    | 0x1F => if x.toNat ≤ y.toNat then y else x
    | 0x20 => x &&& y
    | 0x21 => x ||| y
    | 0x22 => x ^^^ y
    | 0x23 => x <<< (y.toNat % 32)
    | 0x24 => x >>> (y.toNat % 32)
    | _ => x.sshiftRight (y.toNat % 32)
  (r.toNat, 0)

/-! ## Lane movements and reductions -/

/-- Lane j of a list, zero beyond its end. -/
def laneAt (l : List Nat) (j : Nat) : Nat := l.getD j 0

/-- BCAST (R329). -/
def lanesBcast (a b : List Nat) : List Nat := a.map fun _ => laneAt a (laneAt b 0 % a.length)

/-- LROT (R381). -/
def lanesRot (a b : List Nat) : List Nat :=
  (List.range a.length).map fun i => laneAt a ((i + laneAt b 0 % a.length) % a.length)

/-- PERM (R400). -/
def lanesPerm (a b : List Nat) : List Nat :=
  (List.range a.length).map fun i => laneAt a (laneAt b i % a.length)

/-- Adjacent pairs combined: one level of the reduction tree (R414), which for 32 and 64 lanes is the tree of
halves Red(0, L). -/
def reduceLevel (f : Nat → Nat → Result) : List Nat → List Nat × BitVec 7
  | a :: b :: l =>
    let (r, fl) := f a b
    let (t, fl') := reduceLevel f l
    (r :: t, fl ||| fl')
  | l => (l, 0)

/-- RSUM, RMAX and RMIN by levels (R414): lane 0 holds the reduction, every other lane zero bits. -/
def reduceLanes (f : Nat → Nat → Result) : Nat → List Nat → BitVec 7 → Nat × BitVec 7
  | 0, l, fl => (laneAt l 0, fl)
  | k + 1, l, fl =>
    let (l', fl') := reduceLevel f l
    reduceLanes f k l' (fl ||| fl')

/-- The lanes after a reduction. -/
def reduced (f : Nat → Nat → Result) (l : List Nat) : List Nat × BitVec 7 :=
  let (r, fl) := reduceLanes f 6 l 0
  (r :: (l.drop 1).map fun _ => 0, fl)

/-- AMAX (R323). -/
def lanesAmax (f : FloatFmt) (a : List Nat) : List Nat × BitVec 7 :=
  if a.any (fun x => (f.value x).isNan) then
    (a.map fun _ => f.canonicalNaN, flagIf (a.any fun x => (f.value x).isSignalling) flagInvalid)
  else
    let m := a.foldl (fun m x => max m (x % 2 ^ (f.width - 1))) 0
    (a.map fun _ => m, 0)

/-! ## Conversions (R344, R345) -/

/-- CVT from one float format to another, by the mode: narrowing rounds, widening is exact (R345). -/
def laneCvt (src dst : FloatFmt) (m : Rnd) (a : Nat) : Result := dst.convert m (src.value a)

/-- CVTI, f32 to s32 (R345). -/
def laneCvti (m : Rnd) (a : Nat) : Result :=
  let (n, fl) := intConvert 32 true m (f32.value a)
  (lowBits n 32, fl)

/-- CVTF, s32 to a float format (R345). -/
def laneCvtf (dst : FloatFmt) (m : Rnd) (a : Nat) : Result := dst.ofInt m (signed a 32)

end Sys2Proof.Machine
end

