-- ==== Sys2Proof/Config.lean ====
section
/-! DEFINITION. What the spec leaves open: the free values, constants without a body of which nothing can
be proved, and the values private to a device. -/

namespace Sys2Proof.Config

/-- The contents of an accumulator element that a new hold of the matrix engine finds (R32), by the
number of the hold and the element. Free value (log 6). -/
opaque freeAcc : Nat → Nat → BitVec 32

/-- The overflow bit of an a64 line at power-on (R138), by line number. Free value (log 5). -/
opaque powerOnOvf : Nat → Bool

/-- Whether the BULK class has more free buffers in y than in x where a packet stands (R222), and whether an output of a
quay has a full queue in its class as a packet passes (R226), by the number of the packet and the quay. Free values
(log 77). -/
opaque freerInY : Nat → Nat → Bool
opaque queueFull : Nat → Nat → Bool

/-- The set of a line in its slice (R22) and of a 64-byte line in L1 (R148), by line number, and the way that a slice or a
cluster's L1 gives up (R149), by the line that takes its place and the number of packets carried. Free values (log 12). -/
opaque l2Set : Nat → Nat
opaque l1Set : Nat → Nat
opaque victim : Nat → Nat → Nat

/-- A second, third and fourth read of a leaf whose CRIT is set (R157), by the leaf's address, the number of the read and the
device cycle: the bits in which it differs from the first. Free value (log 78). -/
opaque reread : Nat → Nat → Nat → BitVec 64

/-- The serial number, the SM3 digest of the firmware image and the version it reports (R281, R282), and the
device's SM2 public key: values private to a device. Free values (log 16). -/
opaque serial : BitVec 64
opaque measurement : BitVec 256
opaque fwVersion : BitVec 32
opaque publicKey : BitVec 512

/-- The SM2 signature of a report's bytes 0x00 to 0x5F (R282), by the report and the number of the signing. Free
value (log 16). -/
opaque signature : BitVec 768 → Nat → BitVec 512

/-- The I/O die's share of the power cap, the budget that an island requests, its grant where the requests exceed the budget, and
the package's draw in watts (R277, R283), the last three by the device cycle. Free values (log 30). -/
opaque ioShare : Nat
opaque freeRequest : Nat → Nat → Nat
opaque freeGrant : Nat → Nat → Nat
opaque freeDraw : Nat → Nat

/-- Whether the home slice of another package accepts a normal accumulate (R201, R228), by the number of its packet. Free value
(log 49). -/
opaque farAccepts : Nat → Bool

/-- The channel of a stack that holds a physical address (R219). Free value (log 71). -/
opaque channel : Nat → Nat

/-- The bytes that the marked reply of a lost read carries (R234), by the number of packets carried. Free value (log 98). -/
opaque lostData : Nat → BitVec 64

end Sys2Proof.Config
end

