-- ==== Sys2Proof/Syntax.lean ====
section
/-! DEFINITION. The syntax of the KQ9: one constructor of Instr per row of spec/opcode_table.json.
The slot operations carry the fields of their encoding (R292 to R300) under the letters of the opcode table;
the device steps, which have no encoding, carry what identifies the agent and the object they concern. -/

namespace Sys2Proof

/-- SR format with two sources (R292): g[d], g[a], g[b] and the slot predicate p, negated by n. -/
structure SR3 where
  d : BitVec 5
  a : BitVec 5
  b : BitVec 5
  p : BitVec 3
  n : BitVec 1
  deriving DecidableEq, Repr

/-- SR format with one source (R292). -/
structure SR2 where
  d : BitVec 5
  a : BitVec 5
  p : BitVec 3
  n : BitVec 1
  deriving DecidableEq, Repr

/-- ZSET (R441): z[z] := g[a]. -/
structure FZset where
  z : BitVec 5
  a : BitVec 5
  p : BitVec 3
  n : BitVec 1
  deriving DecidableEq, Repr

/-- ZGET (R440): g[d] := z[z]. -/
structure FZget where
  d : BitVec 5
  z : BitVec 5
  p : BitVec 3
  n : BitVec 1
  deriving DecidableEq, Repr

/-- BFX (R293): SR with the sign bit s in fn[0]. -/
structure FBfx where
  d : BitVec 5
  a : BitVec 5
  b : BitVec 5
  p : BitVec 3
  n : BitVec 1
  s : BitVec 1
  deriving DecidableEq, Repr

/-- CMP (R293): predicate k, condition f. -/
structure FCmp where
  k : BitVec 3
  a : BitVec 5
  b : BitVec 5
  p : BitVec 3
  n : BitVec 1
  f : BitVec 6
  deriving DecidableEq, Repr

/-- PLOG (R293): predicates k, a, b and the function f. -/
structure FPlog where
  k : BitVec 3
  a : BitVec 3
  b : BitVec 3
  p : BitVec 3
  n : BitVec 1
  f : BitVec 6
  deriving DecidableEq, Repr

/-- SI format (R292): g[d], g[a], slot predicate p and imm12 i. -/
structure SI where
  d : BitVec 5
  a : BitVec 5
  p : BitVec 3
  i : BitVec 12
  deriving DecidableEq, Repr

/-- SI shifts (R293): the amount c in imm12[5:0]. -/
structure SIsh where
  d : BitVec 5
  a : BitVec 5
  p : BitVec 3
  c : BitVec 6
  deriving DecidableEq, Repr

/-- CMPI (R293): condition c in the pred field. -/
structure FCmpi where
  k : BitVec 3
  a : BitVec 5
  c : BitVec 3
  i : BitVec 12
  deriving DecidableEq, Repr

/-- SW format (R292): g[d] and imm20 i. -/
structure SW where
  d : BitVec 5
  i : BitVec 20
  deriving DecidableEq, Repr

/-- LDS (R293): offset o, sign extension s, size z. -/
structure FLds where
  d : BitVec 5
  a : BitVec 5
  p : BitVec 3
  o : BitVec 9
  s : BitVec 1
  z : BitVec 2
  deriving DecidableEq, Repr

/-- STS (R293): as LDS, with g[d] the data. -/
structure FSts where
  d : BitVec 5
  a : BitVec 5
  p : BitVec 3
  o : BitVec 9
  z : BitVec 2
  deriving DecidableEq, Repr

/-- LD, SH format (R292): handle h, offset g[a], size z, sign extension x. -/
structure FLd where
  d : BitVec 5
  h : BitVec 4
  a : BitVec 5
  z : BitVec 2
  x : BitVec 1
  p : BitVec 3
  n : BitVec 1
  deriving DecidableEq, Repr

/-- ST, SH format (R292): data g[d]. -/
structure FSt where
  d : BitVec 5
  h : BitVec 4
  a : BitVec 5
  z : BitVec 2
  p : BitVec 3
  n : BitVec 1
  deriving DecidableEq, Repr

/-- XLAT, SH format (R292). -/
structure FXlat where
  h : BitVec 4
  a : BitVec 5
  p : BitVec 3
  n : BitVec 1
  deriving DecidableEq, Repr

/-- An operation whose one operand is g[a] (HINV, BREL, BACQ). -/
structure FA where
  a : BitVec 5
  deriving DecidableEq, Repr

/-- HINV, SH format (R293): g[a] at [20:16]. -/
structure FHinv where
  a : BitVec 5
  deriving DecidableEq, Repr

/-- HGEN, SH format (R293). -/
structure FHgen where
  d : BitVec 5
  h : BitVec 4
  p : BitVec 3
  n : BitVec 1
  deriving DecidableEq, Repr

/-- HTST, SH format (R293): the bit tested is named by s. -/
structure FHtst where
  k : BitVec 3
  h : BitVec 4
  p : BitVec 3
  n : BitVec 1
  s : BitVec 4
  deriving DecidableEq, Repr

/-- ATOM, SA format (R292): function f, size s, the bit c of .sc. -/
structure FAtom where
  d : BitVec 5
  h : BitVec 4
  a : BitVec 5
  b : BitVec 5
  f : BitVec 4
  s : BitVec 1
  c : BitVec 1
  deriving DecidableEq, Repr

/-- FENCE, SF format (R292): path mask m and scope s. -/
structure FFence where
  m : BitVec 8
  s : BitVec 3
  deriving DecidableEq, Repr

/-- WAIT, form gen (R294): timeout g[d], address g[a], generation g[b]. -/
structure FWaitGen where
  d : BitVec 5
  a : BitVec 5
  b : BitVec 5
  k : BitVec 3
  t : BitVec 1
  deriving DecidableEq, Repr

/-- WAIT, form buf (R294): ring r and buffer index g[a]. -/
structure FWaitBuf where
  d : BitVec 5
  r : BitVec 6
  a : BitVec 5
  k : BitVec 3
  t : BitVec 1
  deriving DecidableEq, Repr

/-- WAIT, form hdl (R294): handle h. -/
structure FWaitHdl where
  d : BitVec 5
  h : BitVec 4
  k : BitVec 3
  t : BitVec 1
  deriving DecidableEq, Repr

/-- SWSET and SWADD (R293): address g[a], value g[b]. -/
structure FAB where
  a : BitVec 5
  b : BitVec 5
  deriving DecidableEq, Repr

/-- ACQB (R293): ring o, the consumer side c. -/
structure FAcqb where
  d : BitVec 5
  o : BitVec 6
  c : BitVec 1
  deriving DecidableEq, Repr

/-- ACQBT (R293): as ACQB, with the predicate k. -/
structure FAcqbt where
  d : BitVec 5
  o : BitVec 6
  k : BitVec 3
  c : BitVec 1
  deriving DecidableEq, Repr

/-- RELB (R293): ring o, address g[a], the consumer side c. -/
structure FRelb where
  a : BitVec 5
  o : BitVec 6
  c : BitVec 1
  deriving DecidableEq, Repr

/-- BAR (R293): group word g[a], scope s, the swap bit w. -/
structure FBar where
  a : BitVec 5
  s : BitVec 3
  w : BitVec 1
  deriving DecidableEq, Repr

/-- ENQ (R293): image address g[a], cluster g[b], task queue q. -/
structure FEnq where
  a : BitVec 5
  b : BitVec 5
  q : BitVec 4
  deriving DecidableEq, Repr

/-- ENQT (R293): as ENQ, with the predicate k. -/
structure FEnqt where
  a : BitVec 5
  b : BitVec 5
  q : BitVec 4
  k : BitVec 3
  deriving DecidableEq, Repr

/-- DEQ (R293): header g[d], address g[a], task queue q. -/
structure FDeq where
  d : BitVec 5
  a : BitVec 5
  q : BitVec 4
  deriving DecidableEq, Repr

/-- DEQT (R293): as DEQ, with the predicate k. -/
structure FDeqt where
  d : BitVec 5
  a : BitVec 5
  q : BitVec 4
  k : BitVec 3
  deriving DecidableEq, Repr

/-- SPAWN (R293): target cluster g[d], header g[a], payload from g[b], task queue q. -/
structure FSpawn where
  d : BitVec 5
  a : BitVec 5
  b : BitVec 5
  q : BitVec 4
  deriving DecidableEq, Repr

/-- QCFG, QSPL and BMODE (R293): the two-bit field q and g[a]. -/
structure FQA where
  a : BitVec 5
  q : BitVec 2
  deriving DecidableEq, Repr

/-- QUSP (R293). -/
structure FQ where
  q : BitVec 2
  deriving DecidableEq, Repr

/-- QDIST (R293). -/
structure FQD where
  d : BitVec 5
  q : BitVec 2
  deriving DecidableEq, Repr

/-- DSET and DGET (R293): descriptor e, image address g[a]. -/
structure FDset where
  a : BitVec 5
  p : BitVec 3
  e : BitVec 8
  deriving DecidableEq, Repr

/-- CHK (R293). -/
structure FChk where
  a : BitVec 5
  b : BitVec 5
  p : BitVec 3
  n : BitVec 1
  deriving DecidableEq, Repr

/-- CHKQ (R293): the operand bytes x and y. -/
structure FChkq where
  x : BitVec 8
  y : BitVec 8
  deriving DecidableEq, Repr

/-- CHKP (R293). -/
structure FChkp where
  a : BitVec 3
  b : BitVec 3
  p : BitVec 3
  n : BitVec 1
  deriving DecidableEq, Repr

/-- SB format (R292): signed offset o. -/
structure SB where
  p : BitVec 3
  n : BitVec 1
  o : BitVec 21
  deriving DecidableEq, Repr

/-- BRR and RET (R293). -/
structure FBrr where
  a : BitVec 5
  p : BitVec 3
  n : BitVec 1
  deriving DecidableEq, Repr

/-- LOOP (R293): trip count g[a], body length i. -/
structure FLoop where
  a : BitVec 5
  i : BitVec 12
  deriving DecidableEq, Repr

/-- LOOPI (R293): trip count c, body length l. -/
structure FLoopi where
  c : BitVec 12
  l : BitVec 8
  deriving DecidableEq, Repr

/-- BRK (R293). -/
structure FBrk where
  p : BitVec 3
  n : BitVec 1
  deriving DecidableEq, Repr

/-- LIDX and MFSR (R293): g[d] and imm12 i. -/
structure FLidx where
  d : BitVec 5
  p : BitVec 3
  i : BitVec 12
  deriving DecidableEq, Repr

/-- TRAP (R293). -/
structure FTrap where
  p : BitVec 3
  i : BitVec 12
  deriving DecidableEq, Repr

/-- MTSR (R293). -/
structure FMtsr where
  a : BitVec 5
  p : BitVec 3
  i : BitVec 12
  deriving DecidableEq, Repr

/-- COP, SC format (R292): function c, reply r. -/
structure FCop where
  d : BitVec 5
  a : BitVec 5
  b : BitVec 5
  c : BitVec 7
  r : BitVec 1
  deriving DecidableEq, Repr

/-- MMA, MMAS and MMAG (R298): operands a and b, half h, zero z. -/
structure MF where
  a : BitVec 8
  b : BitVec 8
  h : BitVec 2
  z : BitVec 1
  p : BitVec 3
  n : BitVec 1
  deriving DecidableEq, Repr

/-- ACCR (R298): first row f, half h, destination queue d, rounding mode r. -/
structure FAccr where
  f : BitVec 5
  h : BitVec 2
  d : BitVec 2
  r : BitVec 3
  p : BitVec 3
  n : BitVec 1
  deriving DecidableEq, Repr

/-- ACCW (R298): source entry a, first row f, half h. -/
structure FAccw where
  a : BitVec 8
  f : BitVec 5
  h : BitVec 2
  p : BitVec 3
  n : BitVec 1
  deriving DecidableEq, Repr

/-- ACCZ (R298). -/
structure FAccz where
  h : BitVec 2
  p : BitVec 3
  n : BitVec 1
  deriving DecidableEq, Repr

/-- MTRN (R298): source a, half h, destination d. -/
structure FMtrn where
  a : BitVec 8
  h : BitVec 2
  d : BitVec 2
  p : BitVec 3
  n : BitVec 1
  deriving DecidableEq, Repr

/-- CPY and CPYT (R299): staging base b, PADU u, REL l, sync word w. -/
structure ECpy where
  b : BitVec 5
  u : BitVec 1
  l : BitVec 1
  w : BitVec 4
  p : BitVec 3
  n : BitVec 1
  deriving DecidableEq, Repr

/-- CPYM, LDQ and SUBS (R299): appending commands, with the queue q at offset 0. REL is kept, since it traps DESC_INVALID at issue (R179). -/
structure EApp where
  b : BitVec 5
  q : BitVec 2
  u : BitVec 1
  l : BitVec 1
  w : BitVec 4
  p : BitVec 3
  n : BitVec 1
  deriving DecidableEq, Repr

/-- STQ, GATH and SCAT (R299): the entry o. REL is kept, since it traps DESC_INVALID at issue (R179). -/
structure ESrc where
  b : BitVec 5
  o : BitVec 7
  u : BitVec 1
  l : BitVec 1
  w : BitVec 4
  p : BitVec 3
  n : BitVec 1
  deriving DecidableEq, Repr

/-- PREF, PIN and UNPN (R299). -/
structure EZ where
  b : BitVec 5
  p : BitVec 3
  n : BitVec 1
  deriving DecidableEq, Repr

/-- ACCH (R299). -/
structure EAcch where
  b : BitVec 5
  o : BitVec 7
  p : BitVec 3
  n : BitVec 1
  deriving DecidableEq, Repr

/-- FLUSHR (R299). -/
structure EFlushr where
  p : BitVec 3
  n : BitVec 1
  deriving DecidableEq, Repr

/-- XST, RETS and COLL (R299). -/
structure EXst where
  b : BitVec 5
  o : BitVec 7
  w : BitVec 4
  p : BitVec 3
  n : BitVec 1
  deriving DecidableEq, Repr

/-- UNPK and PACK (R300): source s, destination d, narrow m, wide w, mode r, half h. -/
structure UP where
  s : BitVec 7
  d : BitVec 2
  m : BitVec 3
  w : BitVec 2
  r : BitVec 3
  h : BitVec 1
  p : BitVec 3
  n : BitVec 1
  deriving DecidableEq, Repr

/-- PSCL (R300). -/
structure UPscl where
  s : BitVec 7
  d : BitVec 2
  m : BitVec 3
  w : BitVec 2
  p : BitVec 3
  n : BitVec 1
  deriving DecidableEq, Repr

/-- SPMX and SPEX (R300): the N-code c. -/
structure USp where
  s : BitVec 7
  d : BitVec 2
  m : BitVec 3
  c : BitVec 3
  p : BitVec 3
  n : BitVec 1
  deriving DecidableEq, Repr

/-- The vector slot (R295), 64 bits. -/
structure VSlot where
  opA : BitVec 6
  opB : BitVec 6
  opC : BitVec 6
  srcA : BitVec 8
  srcB : BitVec 8
  srcC : BitVec 8
  srcD : BitVec 8
  dst : BitVec 3
  ty : BitVec 2
  rnd : BitVec 3
  p : BitVec 3
  n : BitVec 1
  deriving DecidableEq, Repr

/-- The three stages of the vector cascade (R31). -/
inductive VStage where
  | va
  | vb
  | vc
  deriving DecidableEq, Repr

/-- The result of one dry-dock test pattern: its number, whether it failed in the first and in the second run, and the
offset and differing bits of its first differing word (R253, R254). -/
structure PatternRun where
  pattern : Nat
  failsFirst : Bool
  failsSecond : Bool
  offset : Nat
  diff : Word
  deriving DecidableEq, Repr

/-- The instructions and the device steps of the KQ9, in the order of the opcode table,
those without operands last. -/
inductive Instr where
  /-- FIRMWARE_READY (R285). -/
  | firmwareReady (failed : List (Nat × Nat)) (starts : Bool)
  /-- LAUNCH_WRITE (R40). -/
  | launchWrite (addr : Word)
  /-- PROGRAM_LOAD (R47). -/
  | programLoad (slot entry core : Nat)
  /-- WALKER_OFFER (R64). -/
  | walkerOffer (slot : Nat)
  /-- DISPATCHER_OFFER (R70). -/
  | dispatcherOffer (cluster tq : Nat)
  /-- TASK_PLACE (R76). -/
  | taskPlace (core : Nat)
  /-- TASK_AGE (R59). -/
  | taskAge (core : Nat)
  /-- TIME_SLICE_EXPIRY (R52). -/
  | timeSliceExpiry (core berth : Nat)
  /-- EVICTION_TAKE (R51). -/
  | evictionTake (core berth : Nat)
  /-- EVICTION_COMPLETE (R53). -/
  | evictionComplete (core berth : Nat)
  /-- BUNDLE_ISSUE (R91). -/
  | bundleIssue (core : Nat)
  /-- PBOUND_EXPIRY (R56). -/
  | pboundExpiry (core berth : Nat)
  /-- SEGMENT_COMMIT (R242). -/
  | segmentCommit (core berth : Nat)
  /-- REWIND (R244). -/
  | rewind (core berth : Nat)
  /-- PAGE_FAULT_PARK (R164). -/
  | pageFaultPark (core berth handle : Nat)
  /-- TASK_RETIRE (R39). -/
  | taskRetire (core berth : Nat)
  /-- LAUNCH_COMPLETE (R39). -/
  | launchComplete (slot : Nat)
  /-- SPILL_REFILL (R104). -/
  | spillRefill (cluster tq : Nat)
  /-- ENQ_RESERVATION_ARRIVE (R353). -/
  | enqReservationArrive (id : Nat)
  /-- QSPL_REQUEST_ARRIVE (R96). -/
  | qsplRequestArrive (id : Nat)
  /-- QSPL_REPLY_ARRIVE (R97). -/
  | qsplReplyArrive (id : Nat)
  /-- RESERVATION_NOTICE_ARRIVE (R99). -/
  | reservationNoticeArrive (id : Nat)
  /-- SPLICED_DATA_ARRIVE (R99). -/
  | splicedDataArrive (id : Nat)
  /-- MIRRORED_HEAD_ARRIVE (R98). -/
  | mirroredHeadArrive (id : Nat)
  /-- UNSPLICE_ARRIVE (R100). -/
  | unspliceArrive (id : Nat)
  /-- STEVEDORE_PUSH (R430). -/
  | stevedorePush (core berth sub : Nat)
  /-- ENGINE_GRANULE_CHECK (R162). -/
  | engineGranuleCheck (id : Nat)
  /-- ENGINE_DATA_LAND (R95). -/
  | engineDataLand (id : Nat)
  /-- ENGINE_COMMAND_COMPLETE (R189). -/
  | engineCommandComplete (id : Nat)
  /-- RESULT_WRITEBACK (R92). -/
  | resultWriteback (id : Nat)
  /-- MATRIX_PROMOTION (R130). -/
  | matrixPromotion (core half : Nat) (upset : Int)
  /-- XLAT_WALK_COMPLETE (R159). -/
  | xlatWalkComplete (core berth handle : Nat)
  /-- ACCESS_PERFORM (R192). -/
  | accessPerform (id : Nat)
  /-- ACCESS_REPLY (R227). -/
  | accessReply (id : Nat) (marked : Bool)
  /-- ACCH_ARRIVE (R201). -/
  | acchArrive (id : Nat)
  /-- ACCH_APPLY_DONE (R201). -/
  | acchApplyDone (id : Nat)
  /-- ACCH_REPLY (R204). -/
  | acchReply (id : Nat)
  /-- RESIDUAL_AGE_FORCE (R205). -/
  | residualAgeForce (core berth entry : Nat)
  /-- FORCED_ACCUMULATE_APPLY (R207). -/
  | forcedAccumulateApply (slice : Nat)
  /-- XST_ARRIVE (R229). -/
  | xstArrive (id : Nat)
  /-- BAR_ARRIVAL (R328). -/
  | barArrival (id : Nat)
  /-- BAR_COMPLETION_ARRIVE (R328). -/
  | barCompletionArrive (id : Nat)
  /-- COLL_CONTRIBUTION (R338). -/
  | collContribution (id : Nat)
  /-- MIGRATION_START (R167). -/
  | migrationStart (va frame : Word)
  /-- MIGRATION_SWITCHOVER (R167). -/
  | migrationSwitchover (va : Word)
  /-- DRAM_UNCORRECTABLE_ERROR (R163). -/
  | dramUncorrectableError (addr channel : Nat)
  /-- CORRECTED_ERROR (R252). -/
  | correctedError (kind index : Nat)
  /-- PACKET_CRC_DROP (R234) at a torus link, 0 to 191, or at scale-up port q as link 192 + q. -/
  | packetCrcDrop (link : Nat)
  /-- TRANSPORT_RESEND (R234). -/
  | transportResend (id : Nat)
  /-- DOCK_REQUEST (R254). -/
  | dockRequest (kind index : Nat)
  /-- DOCK_TESTING_START (R256). -/
  | dockTestingStart (kind index : Nat)
  /-- DOCK_WITHDRAW (R255). -/
  | dockWithdraw (kind index : Nat)
  /-- DOCK_VERDICT (R257). -/
  | dockVerdict (kind index : Nat) (runs : List PatternRun)
  /-- POWER_ARBITRATION (R283). -/
  | powerArbitration (requests : List Nat)
  /-- THERMAL_THRESHOLD (R284). -/
  | thermalThreshold (island celsius : Nat)
  /-- EVQRD_WRITE (R274). -/
  | evqrdWrite (value : Word)
  /-- EVQ_RING_ENABLE (R275). -/
  | evqRingEnable (base log2 : Word)
  /-- PFREPLY_RETRY (R280). -/
  | pfreplyRetry (seq : Nat)
  /-- PFREPLY_FAIL (R280). -/
  | pfreplyFail (seq : Nat)
  /-- HOST_REVOKE (R280). -/
  | hostRevoke (va : Word)
  /-- LCTRL_PREEMPT (R280). -/
  | lctrlPreempt (slot : Nat)
  /-- LCTRL_RESUME (R280). -/
  | lctrlResume (slot : Nat)
  /-- LCTRL_TERMINATE (R280). -/
  | lctrlTerminate (slot : Nat)
  /-- PINCLR (R280). -/
  | pinclr (slice : Nat)
  /-- POISONCLR (R280). -/
  | poisonclr (addr : Word)
  /-- BANDDONE (R259). -/
  | banddone (band : Nat)
  /-- RETIRE (R280). -/
  | retire (kind index : Nat)
  /-- MBOX_ATTEST (R282). -/
  | mboxAttest (nonce : Nat)
  /-- MBOX_ERROR (R282). -/
  | mboxError (cmd : Nat)
  /-- APERTURE_READ (R278). -/
  | apertureRead (offset size : Nat)
  /-- APERTURE_WRITE (R278). -/
  | apertureWrite (offset size value : Nat)
  /-- CTRL_REGISTER_WRITE (R279). -/
  | ctrlRegisterWrite (offset : Nat) (value : Word)
  /-- RINGCFG_ENABLE (R107). -/
  | ringcfgEnable (value : Word)
  /-- RINGCFG_DISABLE (R107). -/
  | ringcfgDisable (value : Word)
  /-- ADD (R322). -/
  | add (f : SR3)
  /-- SUB (R428). -/
  | sub_ (f : SR3)
  /-- MUL (R395). -/
  | mul (f : SR3)
  /-- MULH (R395). -/
  | mulh (f : SR3)
  /-- MULHN (R395). -/
  | mulhn (f : SR3)
  /-- DIV (R351). -/
  | div (f : SR3)
  /-- DIVN (R351). -/
  | divn (f : SR3)
  /-- REM (R410). -/
  | rem_ (f : SR3)
  /-- REMN (R410). -/
  | remn (f : SR3)
  /-- AND (R322). -/
  | and_ (f : SR3)
  /-- OR (R397). -/
  | or_ (f : SR3)
  /-- XOR (R428). -/
  | xor_ (f : SR3)
  /-- ANDN (R322). -/
  | andn (f : SR3)
  /-- SHL (R416). -/
  | shl (f : SR3)
  /-- SHR (R416). -/
  | shr (f : SR3)
  /-- SAR (R416). -/
  | sar (f : SR3)
  /-- ROR (R413). -/
  | ror (f : SR3)
  /-- MIN (R384). -/
  | min_ (f : SR3)
  /-- MAX (R384). -/
  | max_ (f : SR3)
  /-- MINN (R384). -/
  | minn (f : SR3)
  /-- MAXN (R384). -/
  | maxn (f : SR3)
  /-- CLZ (R322). -/
  | clz (f : SR2)
  /-- POPC (R403). -/
  | popc (f : SR2)
  /-- SEL (R419). -/
  | sel_ (f : SR3)
  /-- BFX (R330). -/
  | bfx (f : FBfx)
  /-- BFI (R330). -/
  | bfi (f : SR3)
  /-- CMP (R336). -/
  | cmp (f : FCmp)
  /-- PLOG (R402). -/
  | plog (f : FPlog)
  /-- ADDI (R322). -/
  | addi (f : SI)
  /-- ANDI (R322). -/
  | andi (f : SI)
  /-- ORI (R397). -/
  | ori (f : SI)
  /-- XORI (R428). -/
  | xori (f : SI)
  /-- SHLI (R416). -/
  | shli (f : SIsh)
  /-- SHRI (R416). -/
  | shri (f : SIsh)
  /-- SARI (R416). -/
  | sari (f : SIsh)
  /-- MULI (R395). -/
  | muli (f : SI)
  /-- CMPI (R336). -/
  | cmpi (f : FCmpi)
  /-- MOVI (R393). -/
  | movi (f : SW)
  /-- MOVH20 (R393). -/
  | movh20 (f : SW)
  /-- MOVH40 (R393). -/
  | movh40 (f : SW)
  /-- LDS (R375). -/
  | lds (f : FLds)
  /-- STS (R427). -/
  | sts (f : FSts)
  /-- LD (R373). -/
  | ld (f : FLd)
  /-- ST (R425). -/
  | st (f : FSt)
  /-- XLAT (R159). -/
  | xlat (f : FXlat)
  /-- HINV (R370). -/
  | hinv (f : FHinv)
  /-- HGEN (R369). -/
  | hgen (f : FHgen)
  /-- HTST (R369). -/
  | htst (f : FHtst)
  /-- ZSET (R441). -/
  | zset (f : FZset)
  /-- ZGET (R441). -/
  | zget (f : FZget)
  /-- ATOM (R325). -/
  | atom (f : FAtom)
  /-- FENCE (R196). -/
  | fence (f : FFence)
  /-- WAIT_GEN (R114). -/
  | waitGen (f : FWaitGen)
  /-- WAIT_BUF (R114). -/
  | waitBuf (f : FWaitBuf)
  /-- WAIT_HDL (R114). -/
  | waitHdl (f : FWaitHdl)
  /-- WAIT_TIMEOUT (R115). -/
  | waitTimeout (core berth : Nat)
  /-- SWSET (R432). -/
  | swset (f : FAB)
  /-- SWADD (R432). -/
  | swadd (f : FAB)
  /-- ACQB (R321). -/
  | acqb (f : FAcqb)
  /-- ACQBT (R321). -/
  | acqbt (f : FAcqbt)
  /-- RELB (R409). -/
  | relb (f : FRelb)
  /-- BAR (R328). -/
  | bar (f : FBar)
  /-- ENQ (R353). -/
  | enq (f : FEnq)
  /-- ENQT (R354). -/
  | enqt (f : FEnqt)
  /-- DEQ (R348). -/
  | deq (f : FDeq)
  /-- DEQT (R348). -/
  | deqt (f : FDeqt)
  /-- SPAWN (R421). -/
  | spawn (f : FSpawn)
  /-- QCFG (R86). -/
  | qcfg (f : FQA)
  /-- QSPL (R96). -/
  | qspl (f : FQA)
  /-- QUSP (R100). -/
  | qusp (f : FQ)
  /-- QDIST (R406). -/
  | qdist (f : FQD)
  /-- DSET (R350). -/
  | dset (f : FDset)
  /-- DGET (R350). -/
  | dget (f : FDset)
  /-- BMODE (R331). -/
  | bmode (f : FQA)
  /-- BREL (R49). -/
  | brel (f : FA)
  /-- BACQ (R49). -/
  | bacq (f : FA)
  /-- CHK (R335). -/
  | chk (f : FChk)
  /-- CHKQ (R335). -/
  | chkq (f : FChkq)
  /-- CHKP (R335). -/
  | chkp (f : FChkp)
  /-- BR (R333). -/
  | br (f : SB)
  /-- BRR (R333). -/
  | brr (f : FBrr)
  /-- CALL (R333). -/
  | call (f : SB)
  /-- RET (R411). -/
  | ret (f : FBrr)
  /-- LOOP (R380). -/
  | loop_ (f : FLoop)
  /-- LOOPI (R380). -/
  | loopi (f : FLoopi)
  /-- BRK (R333). -/
  | brk (f : FBrk)
  /-- LIDX (R378). -/
  | lidx (f : FLidx)
  /-- TRAP (R433). -/
  | trap (f : FTrap)
  /-- MFSR (R386). -/
  | mfsr (f : FLidx)
  /-- MTSR (R387). -/
  | mtsr (f : FMtsr)
  /-- LEASE_REQ (R377). -/
  | leaseReq (f : SR2)
  /-- LEASE_END (R377). -/
  | leaseEnd (f : SR2)
  /-- COP (R339). -/
  | cop (f : FCop)
  /-- MMA (R389). -/
  | mma (f : MF)
  /-- MMAS (R392). -/
  | mmas (f : MF)
  /-- MMAG (R390). -/
  | mmag (f : MF)
  /-- ACCR (R319). -/
  | accr (f : FAccr)
  /-- ACCW (R319). -/
  | accw (f : FAccw)
  /-- ACCZ (R319). -/
  | accz (f : FAccz)
  /-- MTRN (R394). -/
  | mtrn (f : FMtrn)
  /-- CPY (R341). -/
  | cpy (f : ECpy)
  /-- CPYT (R341). -/
  | cpyt (f : ECpy)
  /-- CPYM (R343). -/
  | cpym (f : EApp)
  /-- LDQ (R374). -/
  | ldq (f : EApp)
  /-- STQ (R426). -/
  | stq (f : ESrc)
  /-- GATH (R367). -/
  | gath (f : ESrc)
  /-- SCAT (R418). -/
  | scat (f : ESrc)
  /-- PREF (R401). -/
  | pref (f : EZ)
  /-- PIN (R401). -/
  | pin (f : EZ)
  /-- UNPN (R436). -/
  | unpn (f : EZ)
  /-- ACCH (R316). -/
  | acch (f : EAcch)
  /-- FLUSHR (R363). -/
  | flushr (f : EFlushr)
  /-- XST (R440). -/
  | xst (f : EXst)
  /-- SUBS (R430). -/
  | subs (f : EApp)
  /-- RETS (R412). -/
  | rets (f : EXst)
  /-- COLL (R338). -/
  | coll (f : EXst)
  /-- UNPK (R435). -/
  | unpk (f : UP)
  /-- PACK (R399). -/
  | pack (f : UP)
  /-- PSCL (R404). -/
  | pscl (f : UPscl)
  /-- SPMX (R423). -/
  | spmx (f : USp)
  /-- SPEX (R424). -/
  | spex (f : USp)
  /-- PASS (R400). -/
  | pass_ (st : VStage) (w : VSlot)
  /-- FADD (R358). -/
  | fadd (st : VStage) (w : VSlot)
  /-- FSUB (R358). -/
  | fsub (st : VStage) (w : VSlot)
  /-- FMUL (R358). -/
  | fmul (st : VStage) (w : VSlot)
  /-- FADDF (R359). -/
  | faddf (st : VStage) (w : VSlot)
  /-- FSUBF (R359). -/
  | fsubf (st : VStage) (w : VSlot)
  /-- FMIN (R364). -/
  | fmin (st : VStage) (w : VSlot)
  /-- FMAX (R364). -/
  | fmax (st : VStage) (w : VSlot)
  /-- FABS (R357). -/
  | fabs (st : VStage) (w : VSlot)
  /-- FNEG (R357). -/
  | fneg (st : VStage) (w : VSlot)
  /-- FCPS (R357). -/
  | fcps (st : VStage) (w : VSlot)
  /-- FCMP (R360). -/
  | fcmp (st : VStage) (w : VSlot)
  /-- FSEL (R361). -/
  | fsel (st : VStage) (w : VSlot)
  /-- FRND (R365). -/
  | frnd (st : VStage) (w : VSlot)
  /-- RCP (R407). -/
  | rcp (st : VStage) (w : VSlot)
  /-- RSQ (R407). -/
  | rsq (st : VStage) (w : VSlot)
  /-- EXP2 (R356). -/
  | exp2 (st : VStage) (w : VSlot)
  /-- LOG2 (R356). -/
  | log2 (st : VStage) (w : VSlot)
  /-- CVT (R345). -/
  | cvt (st : VStage) (w : VSlot)
  /-- CVTI (R345). -/
  | cvti (st : VStage) (w : VSlot)
  /-- CVTF (R345). -/
  | cvtf (st : VStage) (w : VSlot)
  /-- IADD (R371). -/
  | iadd (st : VStage) (w : VSlot)
  /-- ISUB (R371). -/
  | isub (st : VStage) (w : VSlot)
  /-- IMUL (R371). -/
  | imul (st : VStage) (w : VSlot)
  /-- IMULH (R371). -/
  | imulh (st : VStage) (w : VSlot)
  /-- IMIN (R371). -/
  | imin (st : VStage) (w : VSlot)
  /-- IMAX (R371). -/
  | imax (st : VStage) (w : VSlot)
  /-- IMINN (R371). -/
  | iminn (st : VStage) (w : VSlot)
  /-- IMAXN (R371). -/
  | imaxn (st : VStage) (w : VSlot)
  /-- IAND (R371). -/
  | iand (st : VStage) (w : VSlot)
  /-- IOR (R371). -/
  | ior (st : VStage) (w : VSlot)
  /-- IXOR (R371). -/
  | ixor (st : VStage) (w : VSlot)
  /-- ISHL (R371). -/
  | ishl (st : VStage) (w : VSlot)
  /-- ISHR (R371). -/
  | ishr (st : VStage) (w : VSlot)
  /-- ISAR (R371). -/
  | isar (st : VStage) (w : VSlot)
  /-- ICMP (R372). -/
  | icmp (st : VStage) (w : VSlot)
  /-- ISEL (R371). -/
  | isel (st : VStage) (w : VSlot)
  /-- RSUM (R414). -/
  | rsum (st : VStage) (w : VSlot)
  /-- RMAX (R414). -/
  | rmax (st : VStage) (w : VSlot)
  /-- RMIN (R414). -/
  | rmin (st : VStage) (w : VSlot)
  /-- BCAST (R329). -/
  | bcast (st : VStage) (w : VSlot)
  /-- PERM (R400). -/
  | perm (st : VStage) (w : VSlot)
  /-- LROT (R381). -/
  | lrot (st : VStage) (w : VSlot)
  /-- AMAX (R323). -/
  | amax (st : VStage) (w : VSlot)
  /-- BERTH_STATE_UNCORRECTABLE_ERROR (R244). -/
  | berthStateUncorrectableError (core berth struct num : Nat)
  /-- L2_SCRATCHPAD_UNCORRECTABLE_ERROR (R251). -/
  | l2ScratchpadUncorrectableError (inL2 : Bool) (unit addr : Nat)
  /-- MIGRATION_WRITE_RETRY (R167). -/
  | migrationWriteRetry (id : Nat)
  /-- TICKET_REQUEST_ARRIVE (R198). -/
  | ticketRequestArrive (id : Nat)
  /-- POWER_ON_RESET (R285). -/
  | powerOnReset
  /-- LAUNCH_ADMIT (R40). -/
  | launchAdmission
  /-- SCORE_HOURLY_DECAY (R252). -/
  | scoreHourlyDecay
  /-- EVENT_ACCEPT (R274). -/
  | eventAccept
  /-- EVQ_COMPLETION_MESSAGE (R277). -/
  | evqCompletionMessage
  /-- MBOX_PUBLIC_KEY (R282). -/
  | mboxPublicKey
  /-- NOP (R396). -/
  | nop
  /-- ERET (R267). -/
  | eret
  /-- HALT (R368). -/
  | halt
  /-- ORDERLY_SHUTDOWN (R252). -/
  | orderlyShutdown
  deriving DecidableEq, Repr

end Sys2Proof
end

