-- ==== Sys2Proof/WellFormed.lean ====
section
/-! DEFINITION. Which instructions are legal: the limits the encoding tables set on the fields of an
operation (R289, R293 to R300). An operation outside them traps ILLEGAL_OPCODE (R289). -/

namespace Sys2Proof

/-- The special-register indexes that R303 lists. -/
def specialIndexes : List Nat :=
  [0x000, 0x001, 0x002, 0x003, 0x004, 0x005, 0x006, 0x007, 0x008, 0x010, 0x011, 0x012, 0x013,
   0x020, 0x021, 0x022, 0x030, 0x040, 0x041, 0x050, 0x051]

/-- Which lane types a V-stage operation takes (R296). -/
inductive VTypes where
  | any
  | float
  | int
  deriving DecidableEq, Repr

/-- The row of R296 of a V-stage opcode: its types and how many operands it reads (R295, R296). -/
def vOpcode (o : Nat) : Option (VTypes × Nat) :=
  if o = 0x00 then some (.any, 1)
  else if o ≤ 0x07 then some (.float, 2)
  else if o ≤ 0x09 then some (.float, 1)
  else if o ≤ 0x0C then some (.float, 2)
  else if o ≤ 0x12 then some (.float, 1)
  else if o = 0x13 then some (.int, 1)
  else if o = 0x14 then some (.float, 1)
  else if o < 0x18 then none
  else if o ≤ 0x27 then some (.int, 2)
  else if o < 0x30 then none
  else if o ≤ 0x32 then some (.any, 1)
  else if o ≤ 0x35 then some (.any, 2)
  else if o = 0x36 then some (.float, 1)
  else none

/-- The opcodes that own the rnd/cond field (R123): FCMP, FRND, CVT, CVTI, CVTF, ICMP. -/
def vOwner (o : Nat) : Bool :=
  o == 0x0B || o == 0x0D || o == 0x12 || o == 0x13 || o == 0x14 || o == 0x26

/-- The opcode of a stage of a V slot. -/
def VSlot.op (w : VSlot) : VStage → Nat
  | .va => w.opA.toNat
  | .vb => w.opB.toNat
  | .vc => w.opC.toNat

/-- The number of a stage, as SR.EINFO records it (R272). -/
def VStage.num : VStage → Nat
  | .va => 0
  | .vb => 1
  | .vc => 2

/-- The first stage of a chain that owns the rnd/cond field (R123). -/
def VSlot.owner (w : VSlot) : Option VStage :=
  if vOwner w.opA.toNat then some .va
  else if vOwner w.opB.toNat then some .vb
  else if vOwner w.opC.toNat then some .vc
  else none

/-- The source format of the conversion with opcode o in a chain of type ty with field rnd, as a type
code of R120 (R344): the format in which the stages up to the conversion work. None for an operation
that is no conversion, or a conversion whose type or field R344 does not allow. -/
def vConvSource (o ty rnd : Nat) : Option Nat :=
  if o = 0x12 then
    if ty = 0 then (if rnd = 0 then some 1 else if rnd = 1 then some 2 else none)
    else if ty ≤ 2 then (if rnd ≤ 4 then some 0 else none)
    else none
  else if o = 0x13 then (if ty = 3 ∧ rnd ≤ 4 then some 0 else none)
  else if o = 0x14 then (if ty ≤ 2 ∧ rnd ≤ 4 then some 3 else none)
  else none

/-- Whether an opcode is a conversion (CVT, CVTI, CVTF). -/
def vConv (o : Nat) : Bool := o == 0x12 || o == 0x13 || o == 0x14

/-- The format in which a stage reads its inputs, as a type code of R120 (R297, R345). -/
def VSlot.stageFormat (w : VSlot) (st : VStage) : Nat :=
  match w.owner with
  | none => w.ty.toNat
  | some c =>
    if vConv (w.op c) && decide (st.num ≤ c.num) then
      (vConvSource (w.op c) w.ty.toNat w.rnd.toNat).getD w.ty.toNat
    else w.ty.toNat

/-- The operand byte that a stage reads as its second operand (R295). -/
def VSlot.second (w : VSlot) : VStage → Nat
  | .va => w.srcB.toNat
  | .vb => w.srcC.toNat
  | .vc => w.srcD.toNat

/-- Whether a stage reads its second operand: the operation has two, and with dst 5 srcD names the
row written and is not read (R295, R297). -/
def VSlot.readsSecond (w : VSlot) (st : VStage) : Bool :=
  match vOpcode (w.op st) with
  | some (_, 2) => decide (¬ (st = .vc ∧ w.dst = 5))
  | _ => false

/-- The operand bytes that a chain reads: A, and the second operand of each binary stage (R295). -/
def VSlot.operands (w : VSlot) : List Nat :=
  w.srcA.toNat ::
    ([VStage.va, .vb, .vc].filter w.readsSecond).map w.second

/-- Whether a chain reads or writes an accumulator row (R297). -/
def VSlot.usesAcc (w : VSlot) : Bool := w.dst == 5 || w.operands.any fun o => decide (0xC0 ≤ o)

/-- An operand byte that a stage working in format fmt may read (R295, R297). -/
def operandByteOk (b fmt : Nat) : Bool :=
  !(b == 0xA3 || (decide (0xA7 ≤ b) && decide (b ≤ 0xBF)) || (decide (0xC0 ≤ b) && fmt != 0))

/-- Whether one stage of a V slot is legal: its opcode, its types, the place of a fused operation,
its use of the rnd/cond field and the operands it reads (R122, R123, R295 to R297, R344, R359). -/
def VSlot.stageOk (w : VSlot) (st : VStage) : Bool :=
  let o := w.op st
  let fmt := w.stageFormat st
  match vOpcode o with
  | none => false
  | some (types, _) =>
    (match st with
      | .va => o != 0x04 && o != 0x05
      | .vb => (o != 0x04 && o != 0x05) || w.opA.toNat == 0x03
      | .vc => (o != 0x04 && o != 0x05) || w.opB.toNat == 0x03) &&
    -- a second owner of the rnd/cond field (R123)
    (!vOwner o || w.owner == some st) &&
    (if vConv o then (vConvSource o w.ty.toNat w.rnd.toNat).isSome
     else match types with
      | .any => true
      | .float => fmt != 3
      | .int => fmt == 3) &&
    (o != 0x0D || decide (w.rnd.toNat ≤ 4)) &&
    (st != .va || operandByteOk w.srcA.toNat fmt) &&
    (!w.readsSecond st || operandByteOk (w.second st) fmt)

/-- The fields of a V slot that belong to no stage: the chain's rounding mode and the destination
(R123, R295). -/
def VSlot.fieldsOk (w : VSlot) : Bool :=
  (w.owner.isSome || decide (w.rnd.toNat ≤ 4)) && decide (w.dst.toNat ≤ 5)

/-- An accumulator-row destination: type f32, opVC PASS and srcD an accumulator row (R297). -/
def VSlot.rowDestOk (w : VSlot) : Bool :=
  w.dst != 5 || (w.ty == 0 && w.opC == 0 && decide (0xC0 ≤ w.srcD.toNat))

/-- A legal V slot. -/
def VSlot.wf (w : VSlot) : Bool :=
  w.stageOk .va && w.stageOk .vb && w.stageOk .vc && w.fieldsOk && w.rowDestOk

/-- The stage that an ILLEGAL_OPCODE of a V slot names (R272): the first stage that is not legal, VA for
a field of the whole chain, VC for a row destination. DEDUCED (log 7). -/
def VSlot.badStage (w : VSlot) : VStage :=
  if !w.stageOk .va then .va
  else if !w.stageOk .vb then .vb
  else if !w.stageOk .vc then .vc
  else if !w.fieldsOk then .va
  else .vc

/-- A U-slot narrow format with a wide format (R120): 7 is reserved and a floating narrow format does
not pair with s32. -/
def packFormatsOk (m w : Nat) : Bool := m != 7 && (w != 3 || decide (4 ≤ m))

/-- The limits of UNPK and PACK (R122, R434, R398): the rounding mode, the formats, and hi only for f4
and s4. -/
def UP.wf (f : UP) : Bool :=
  decide (f.r.toNat ≤ 4) && packFormatsOk f.m.toNat f.w.toNat &&
  (f.h == 0 || f.m == 3 || f.m == 6)

/-- How many entries PACK reads its elements from: 128 / lanes of the wide format (R398). -/
def packEntries (w : Nat) : Nat := if w = 1 ∨ w = 2 then 2 else 4

/-- Whether an instruction is legal in some slot of the machine (R289, R291 to R300). A device step has
no encoding and is always legal. -/
def Instr.wellFormed : Instr → Bool
  | .cmp f => decide (f.f.toNat < 8)
  | .plog f => decide (f.f.toNat < 4) || (f.f == 4 && f.b == 0)
  | .ld f => !(f.z == 3 && f.x == 1)
  | .htst f => decide (f.s.toNat < 4)
  | .atom f =>
    decide (f.f.toNat < 10) || (f.f == 10 && f.s == 0) || (f.f == 11 && f.s == 1)
  | .waitGen f => f.t == 0 || f.k == 0
  | .waitBuf f => f.t == 0 || f.k == 0
  | .waitHdl f => f.t == 0 || f.k == 0
  | .spawn f => decide (f.b.toNat ≤ 29)
  | .bmode f => f.q != 3
  | .chkq f => decide (f.x.toNat < 0x80) && decide (f.y.toNat < 0x80)
  | .loop_ f => decide (1 ≤ f.i.toNat) && decide (f.i.toNat ≤ 2047)
  | .loopi f => decide (1 ≤ f.l.toNat)
  | .lidx f => decide (f.i.toNat ≤ 5)
  | .mfsr f => decide (f.i.toNat ∈ specialIndexes)
  | .mtsr f => decide (f.i.toNat ∈ specialIndexes)
  | .cop f => f.c == 0
  | .mma f => f.h != 3
  | .mmas f => f.h != 3
  | .mmag f => f.h != 3
  | .accr f => (f.h == 1 || f.h == 2) && decide (f.r.toNat ≤ 4)
  | .accw f => f.h == 1 || f.h == 2
  | .accz f => f.h == 1 || f.h == 2
  | .mtrn f => f.h != 3
  | .unpk f => f.wf
  | .pack f => f.wf && decide (f.s.toNat % 32 + packEntries f.w.toNat ≤ 31)
  | .pscl f => packFormatsOk f.m.toNat f.w.toNat && f.w != 3
  | .spmx f => (f.m == 0 || f.m == 1 || f.m == 4) && decide (f.c.toNat ≤ 5)
  | .spex f => (f.m == 0 || f.m == 1 || f.m == 4) && decide (f.c.toNat ≤ 5)
  | .pass_ v w => w.wf && w.op v == 0x00
  | .fadd v w => w.wf && w.op v == 0x01
  | .fsub v w => w.wf && w.op v == 0x02
  | .fmul v w => w.wf && w.op v == 0x03
  | .faddf v w => w.wf && w.op v == 0x04
  | .fsubf v w => w.wf && w.op v == 0x05
  | .fmin v w => w.wf && w.op v == 0x06
  | .fmax v w => w.wf && w.op v == 0x07
  | .fabs v w => w.wf && w.op v == 0x08
  | .fneg v w => w.wf && w.op v == 0x09
  | .fcps v w => w.wf && w.op v == 0x0A
  | .fcmp v w => w.wf && w.op v == 0x0B
  | .fsel v w => w.wf && w.op v == 0x0C
  | .frnd v w => w.wf && w.op v == 0x0D
  | .rcp v w => w.wf && w.op v == 0x0E
  | .rsq v w => w.wf && w.op v == 0x0F
  | .exp2 v w => w.wf && w.op v == 0x10
  | .log2 v w => w.wf && w.op v == 0x11
  | .cvt v w => w.wf && w.op v == 0x12
  | .cvti v w => w.wf && w.op v == 0x13
  | .cvtf v w => w.wf && w.op v == 0x14
  | .iadd v w => w.wf && w.op v == 0x18
  | .isub v w => w.wf && w.op v == 0x19
  | .imul v w => w.wf && w.op v == 0x1A
  | .imulh v w => w.wf && w.op v == 0x1B
  | .imin v w => w.wf && w.op v == 0x1C
  | .imax v w => w.wf && w.op v == 0x1D
  | .iminn v w => w.wf && w.op v == 0x1E
  | .imaxn v w => w.wf && w.op v == 0x1F
  | .iand v w => w.wf && w.op v == 0x20
  | .ior v w => w.wf && w.op v == 0x21
  | .ixor v w => w.wf && w.op v == 0x22
  | .ishl v w => w.wf && w.op v == 0x23
  | .ishr v w => w.wf && w.op v == 0x24
  | .isar v w => w.wf && w.op v == 0x25
  | .icmp v w => w.wf && w.op v == 0x26
  | .isel v w => w.wf && w.op v == 0x27
  | .rsum v w => w.wf && w.op v == 0x30
  | .rmax v w => w.wf && w.op v == 0x31
  | .rmin v w => w.wf && w.op v == 0x32
  | .bcast v w => w.wf && w.op v == 0x33
  | .perm v w => w.wf && w.op v == 0x34
  | .lrot v w => w.wf && w.op v == 0x35
  | .amax v w => w.wf && w.op v == 0x36
  | _ => true

end Sys2Proof
end

