-- ==== Sys2Proof/Decode.lean ====
section
/-! DEFINITION. Decoding of bundles and slots, and the encoder (R287 to R300). -/

namespace Sys2Proof

/-- The bits of the fields of SR3, each at its place (R292 to R300). -/
def SR3.place (f : SR3) : Nat := f.d.toNat * 2 ^ 7 + f.a.toNat * 2 ^ 12 + f.b.toNat * 2 ^ 17 + f.p.toNat * 2 ^ 22 + f.n.toNat * 2 ^ 25
/-- The fields of SR3 read from a word. -/
def SR3.read (w : Nat) : SR3 := ⟨.ofNat 5 (w / 2 ^ 7), .ofNat 5 (w / 2 ^ 12), .ofNat 5 (w / 2 ^ 17), .ofNat 3 (w / 2 ^ 22), .ofNat 1 (w / 2 ^ 25)⟩

/-- The bits of the fields of SR2, each at its place (R292 to R300). -/
def SR2.place (f : SR2) : Nat := f.d.toNat * 2 ^ 7 + f.a.toNat * 2 ^ 12 + f.p.toNat * 2 ^ 22 + f.n.toNat * 2 ^ 25
/-- The fields of SR2 read from a word. -/
def SR2.read (w : Nat) : SR2 := ⟨.ofNat 5 (w / 2 ^ 7), .ofNat 5 (w / 2 ^ 12), .ofNat 3 (w / 2 ^ 22), .ofNat 1 (w / 2 ^ 25)⟩

/-- The bits of the fields of FZset, each at its place (R292 to R300). -/
def FZset.place (f : FZset) : Nat := f.z.toNat * 2 ^ 7 + f.a.toNat * 2 ^ 12 + f.p.toNat * 2 ^ 22 + f.n.toNat * 2 ^ 25
/-- The fields of FZset read from a word. -/
def FZset.read (w : Nat) : FZset := ⟨.ofNat 5 (w / 2 ^ 7), .ofNat 5 (w / 2 ^ 12), .ofNat 3 (w / 2 ^ 22), .ofNat 1 (w / 2 ^ 25)⟩

/-- The bits of the fields of FZget, each at its place (R292 to R300). -/
def FZget.place (f : FZget) : Nat := f.d.toNat * 2 ^ 7 + f.z.toNat * 2 ^ 12 + f.p.toNat * 2 ^ 22 + f.n.toNat * 2 ^ 25
/-- The fields of FZget read from a word. -/
def FZget.read (w : Nat) : FZget := ⟨.ofNat 5 (w / 2 ^ 7), .ofNat 5 (w / 2 ^ 12), .ofNat 3 (w / 2 ^ 22), .ofNat 1 (w / 2 ^ 25)⟩

/-- The bits of the fields of FBfx, each at its place (R292 to R300). -/
def FBfx.place (f : FBfx) : Nat := f.d.toNat * 2 ^ 7 + f.a.toNat * 2 ^ 12 + f.b.toNat * 2 ^ 17 + f.p.toNat * 2 ^ 22 + f.n.toNat * 2 ^ 25 + f.s.toNat * 2 ^ 26
/-- The fields of FBfx read from a word. -/
def FBfx.read (w : Nat) : FBfx := ⟨.ofNat 5 (w / 2 ^ 7), .ofNat 5 (w / 2 ^ 12), .ofNat 5 (w / 2 ^ 17), .ofNat 3 (w / 2 ^ 22), .ofNat 1 (w / 2 ^ 25), .ofNat 1 (w / 2 ^ 26)⟩

/-- The bits of the fields of FCmp, each at its place (R292 to R300). -/
def FCmp.place (f : FCmp) : Nat := f.k.toNat * 2 ^ 7 + f.a.toNat * 2 ^ 12 + f.b.toNat * 2 ^ 17 + f.p.toNat * 2 ^ 22 + f.n.toNat * 2 ^ 25 + f.f.toNat * 2 ^ 26
/-- The fields of FCmp read from a word. -/
def FCmp.read (w : Nat) : FCmp := ⟨.ofNat 3 (w / 2 ^ 7), .ofNat 5 (w / 2 ^ 12), .ofNat 5 (w / 2 ^ 17), .ofNat 3 (w / 2 ^ 22), .ofNat 1 (w / 2 ^ 25), .ofNat 6 (w / 2 ^ 26)⟩

/-- The bits of the fields of FPlog, each at its place (R292 to R300). -/
def FPlog.place (f : FPlog) : Nat := f.k.toNat * 2 ^ 7 + f.a.toNat * 2 ^ 12 + f.b.toNat * 2 ^ 17 + f.p.toNat * 2 ^ 22 + f.n.toNat * 2 ^ 25 + f.f.toNat * 2 ^ 26
/-- The fields of FPlog read from a word. -/
def FPlog.read (w : Nat) : FPlog := ⟨.ofNat 3 (w / 2 ^ 7), .ofNat 3 (w / 2 ^ 12), .ofNat 3 (w / 2 ^ 17), .ofNat 3 (w / 2 ^ 22), .ofNat 1 (w / 2 ^ 25), .ofNat 6 (w / 2 ^ 26)⟩

/-- The bits of the fields of SI, each at its place (R292 to R300). -/
def SI.place (f : SI) : Nat := f.d.toNat * 2 ^ 7 + f.a.toNat * 2 ^ 12 + f.p.toNat * 2 ^ 17 + f.i.toNat * 2 ^ 20
/-- The fields of SI read from a word. -/
def SI.read (w : Nat) : SI := ⟨.ofNat 5 (w / 2 ^ 7), .ofNat 5 (w / 2 ^ 12), .ofNat 3 (w / 2 ^ 17), .ofNat 12 (w / 2 ^ 20)⟩

/-- The bits of the fields of SIsh, each at its place (R292 to R300). -/
def SIsh.place (f : SIsh) : Nat := f.d.toNat * 2 ^ 7 + f.a.toNat * 2 ^ 12 + f.p.toNat * 2 ^ 17 + f.c.toNat * 2 ^ 20
/-- The fields of SIsh read from a word. -/
def SIsh.read (w : Nat) : SIsh := ⟨.ofNat 5 (w / 2 ^ 7), .ofNat 5 (w / 2 ^ 12), .ofNat 3 (w / 2 ^ 17), .ofNat 6 (w / 2 ^ 20)⟩

/-- The bits of the fields of FCmpi, each at its place (R292 to R300). -/
def FCmpi.place (f : FCmpi) : Nat := f.k.toNat * 2 ^ 7 + f.a.toNat * 2 ^ 12 + f.c.toNat * 2 ^ 17 + f.i.toNat * 2 ^ 20
/-- The fields of FCmpi read from a word. -/
def FCmpi.read (w : Nat) : FCmpi := ⟨.ofNat 3 (w / 2 ^ 7), .ofNat 5 (w / 2 ^ 12), .ofNat 3 (w / 2 ^ 17), .ofNat 12 (w / 2 ^ 20)⟩

/-- The bits of the fields of SW, each at its place (R292 to R300). -/
def SW.place (f : SW) : Nat := f.d.toNat * 2 ^ 7 + f.i.toNat * 2 ^ 12
/-- The fields of SW read from a word. -/
def SW.read (w : Nat) : SW := ⟨.ofNat 5 (w / 2 ^ 7), .ofNat 20 (w / 2 ^ 12)⟩

/-- The bits of the fields of FLds, each at its place (R292 to R300). -/
def FLds.place (f : FLds) : Nat := f.d.toNat * 2 ^ 7 + f.a.toNat * 2 ^ 12 + f.p.toNat * 2 ^ 17 + f.o.toNat * 2 ^ 20 + f.s.toNat * 2 ^ 29 + f.z.toNat * 2 ^ 30
/-- The fields of FLds read from a word. -/
def FLds.read (w : Nat) : FLds := ⟨.ofNat 5 (w / 2 ^ 7), .ofNat 5 (w / 2 ^ 12), .ofNat 3 (w / 2 ^ 17), .ofNat 9 (w / 2 ^ 20), .ofNat 1 (w / 2 ^ 29), .ofNat 2 (w / 2 ^ 30)⟩

/-- The bits of the fields of FSts, each at its place (R292 to R300). -/
def FSts.place (f : FSts) : Nat := f.d.toNat * 2 ^ 7 + f.a.toNat * 2 ^ 12 + f.p.toNat * 2 ^ 17 + f.o.toNat * 2 ^ 20 + f.z.toNat * 2 ^ 30
/-- The fields of FSts read from a word. -/
def FSts.read (w : Nat) : FSts := ⟨.ofNat 5 (w / 2 ^ 7), .ofNat 5 (w / 2 ^ 12), .ofNat 3 (w / 2 ^ 17), .ofNat 9 (w / 2 ^ 20), .ofNat 2 (w / 2 ^ 30)⟩

/-- The bits of the fields of FLd, each at its place (R292 to R300). -/
def FLd.place (f : FLd) : Nat := f.d.toNat * 2 ^ 7 + f.h.toNat * 2 ^ 12 + f.a.toNat * 2 ^ 16 + f.z.toNat * 2 ^ 21 + f.x.toNat * 2 ^ 23 + f.p.toNat * 2 ^ 24 + f.n.toNat * 2 ^ 27
/-- The fields of FLd read from a word. -/
def FLd.read (w : Nat) : FLd := ⟨.ofNat 5 (w / 2 ^ 7), .ofNat 4 (w / 2 ^ 12), .ofNat 5 (w / 2 ^ 16), .ofNat 2 (w / 2 ^ 21), .ofNat 1 (w / 2 ^ 23), .ofNat 3 (w / 2 ^ 24), .ofNat 1 (w / 2 ^ 27)⟩

/-- The bits of the fields of FSt, each at its place (R292 to R300). -/
def FSt.place (f : FSt) : Nat := f.d.toNat * 2 ^ 7 + f.h.toNat * 2 ^ 12 + f.a.toNat * 2 ^ 16 + f.z.toNat * 2 ^ 21 + f.p.toNat * 2 ^ 24 + f.n.toNat * 2 ^ 27
/-- The fields of FSt read from a word. -/
def FSt.read (w : Nat) : FSt := ⟨.ofNat 5 (w / 2 ^ 7), .ofNat 4 (w / 2 ^ 12), .ofNat 5 (w / 2 ^ 16), .ofNat 2 (w / 2 ^ 21), .ofNat 3 (w / 2 ^ 24), .ofNat 1 (w / 2 ^ 27)⟩

/-- The bits of the fields of FXlat, each at its place (R292 to R300). -/
def FXlat.place (f : FXlat) : Nat := f.h.toNat * 2 ^ 12 + f.a.toNat * 2 ^ 16 + f.p.toNat * 2 ^ 24 + f.n.toNat * 2 ^ 27
/-- The fields of FXlat read from a word. -/
def FXlat.read (w : Nat) : FXlat := ⟨.ofNat 4 (w / 2 ^ 12), .ofNat 5 (w / 2 ^ 16), .ofNat 3 (w / 2 ^ 24), .ofNat 1 (w / 2 ^ 27)⟩

/-- The bits of the fields of FA, each at its place (R292 to R300). -/
def FA.place (f : FA) : Nat := f.a.toNat * 2 ^ 12
/-- The fields of FA read from a word. -/
def FA.read (w : Nat) : FA := ⟨.ofNat 5 (w / 2 ^ 12)⟩

/-- The bits of the fields of FHinv, each at its place (R292 to R300). -/
def FHinv.place (f : FHinv) : Nat := f.a.toNat * 2 ^ 16
/-- The fields of FHinv read from a word. -/
def FHinv.read (w : Nat) : FHinv := ⟨.ofNat 5 (w / 2 ^ 16)⟩

/-- The bits of the fields of FHgen, each at its place (R292 to R300). -/
def FHgen.place (f : FHgen) : Nat := f.d.toNat * 2 ^ 7 + f.h.toNat * 2 ^ 12 + f.p.toNat * 2 ^ 24 + f.n.toNat * 2 ^ 27
/-- The fields of FHgen read from a word. -/
def FHgen.read (w : Nat) : FHgen := ⟨.ofNat 5 (w / 2 ^ 7), .ofNat 4 (w / 2 ^ 12), .ofNat 3 (w / 2 ^ 24), .ofNat 1 (w / 2 ^ 27)⟩

/-- The bits of the fields of FHtst, each at its place (R292 to R300). -/
def FHtst.place (f : FHtst) : Nat := f.k.toNat * 2 ^ 7 + f.h.toNat * 2 ^ 12 + f.p.toNat * 2 ^ 24 + f.n.toNat * 2 ^ 27 + f.s.toNat * 2 ^ 28
/-- The fields of FHtst read from a word. -/
def FHtst.read (w : Nat) : FHtst := ⟨.ofNat 3 (w / 2 ^ 7), .ofNat 4 (w / 2 ^ 12), .ofNat 3 (w / 2 ^ 24), .ofNat 1 (w / 2 ^ 27), .ofNat 4 (w / 2 ^ 28)⟩

/-- The bits of the fields of FAtom, each at its place (R292 to R300). -/
def FAtom.place (f : FAtom) : Nat := f.d.toNat * 2 ^ 7 + f.h.toNat * 2 ^ 12 + f.a.toNat * 2 ^ 16 + f.b.toNat * 2 ^ 21 + f.f.toNat * 2 ^ 26 + f.s.toNat * 2 ^ 30 + f.c.toNat * 2 ^ 31
/-- The fields of FAtom read from a word. -/
def FAtom.read (w : Nat) : FAtom := ⟨.ofNat 5 (w / 2 ^ 7), .ofNat 4 (w / 2 ^ 12), .ofNat 5 (w / 2 ^ 16), .ofNat 5 (w / 2 ^ 21), .ofNat 4 (w / 2 ^ 26), .ofNat 1 (w / 2 ^ 30), .ofNat 1 (w / 2 ^ 31)⟩

/-- The bits of the fields of FFence, each at its place (R292 to R300). -/
def FFence.place (f : FFence) : Nat := f.m.toNat * 2 ^ 7 + f.s.toNat * 2 ^ 15
/-- The fields of FFence read from a word. -/
def FFence.read (w : Nat) : FFence := ⟨.ofNat 8 (w / 2 ^ 7), .ofNat 3 (w / 2 ^ 15)⟩

/-- The bits of the fields of FWaitGen, each at its place (R292 to R300). -/
def FWaitGen.place (f : FWaitGen) : Nat := f.d.toNat * 2 ^ 7 + f.a.toNat * 2 ^ 14 + f.b.toNat * 2 ^ 19 + f.k.toNat * 2 ^ 28 + f.t.toNat * 2 ^ 31
/-- The fields of FWaitGen read from a word. -/
def FWaitGen.read (w : Nat) : FWaitGen := ⟨.ofNat 5 (w / 2 ^ 7), .ofNat 5 (w / 2 ^ 14), .ofNat 5 (w / 2 ^ 19), .ofNat 3 (w / 2 ^ 28), .ofNat 1 (w / 2 ^ 31)⟩

/-- The bits of the fields of FWaitBuf, each at its place (R292 to R300). -/
def FWaitBuf.place (f : FWaitBuf) : Nat := f.d.toNat * 2 ^ 7 + f.r.toNat * 2 ^ 14 + f.a.toNat * 2 ^ 20 + f.k.toNat * 2 ^ 28 + f.t.toNat * 2 ^ 31
/-- The fields of FWaitBuf read from a word. -/
def FWaitBuf.read (w : Nat) : FWaitBuf := ⟨.ofNat 5 (w / 2 ^ 7), .ofNat 6 (w / 2 ^ 14), .ofNat 5 (w / 2 ^ 20), .ofNat 3 (w / 2 ^ 28), .ofNat 1 (w / 2 ^ 31)⟩

/-- The bits of the fields of FWaitHdl, each at its place (R292 to R300). -/
def FWaitHdl.place (f : FWaitHdl) : Nat := f.d.toNat * 2 ^ 7 + f.h.toNat * 2 ^ 14 + f.k.toNat * 2 ^ 28 + f.t.toNat * 2 ^ 31
/-- The fields of FWaitHdl read from a word. -/
def FWaitHdl.read (w : Nat) : FWaitHdl := ⟨.ofNat 5 (w / 2 ^ 7), .ofNat 4 (w / 2 ^ 14), .ofNat 3 (w / 2 ^ 28), .ofNat 1 (w / 2 ^ 31)⟩

/-- The bits of the fields of FAB, each at its place (R292 to R300). -/
def FAB.place (f : FAB) : Nat := f.a.toNat * 2 ^ 12 + f.b.toNat * 2 ^ 17
/-- The fields of FAB read from a word. -/
def FAB.read (w : Nat) : FAB := ⟨.ofNat 5 (w / 2 ^ 12), .ofNat 5 (w / 2 ^ 17)⟩

/-- The bits of the fields of FAcqb, each at its place (R292 to R300). -/
def FAcqb.place (f : FAcqb) : Nat := f.d.toNat * 2 ^ 7 + f.o.toNat * 2 ^ 22 + f.c.toNat * 2 ^ 31
/-- The fields of FAcqb read from a word. -/
def FAcqb.read (w : Nat) : FAcqb := ⟨.ofNat 5 (w / 2 ^ 7), .ofNat 6 (w / 2 ^ 22), .ofNat 1 (w / 2 ^ 31)⟩

/-- The bits of the fields of FAcqbt, each at its place (R292 to R300). -/
def FAcqbt.place (f : FAcqbt) : Nat := f.d.toNat * 2 ^ 7 + f.o.toNat * 2 ^ 22 + f.k.toNat * 2 ^ 28 + f.c.toNat * 2 ^ 31
/-- The fields of FAcqbt read from a word. -/
def FAcqbt.read (w : Nat) : FAcqbt := ⟨.ofNat 5 (w / 2 ^ 7), .ofNat 6 (w / 2 ^ 22), .ofNat 3 (w / 2 ^ 28), .ofNat 1 (w / 2 ^ 31)⟩

/-- The bits of the fields of FRelb, each at its place (R292 to R300). -/
def FRelb.place (f : FRelb) : Nat := f.a.toNat * 2 ^ 12 + f.o.toNat * 2 ^ 22 + f.c.toNat * 2 ^ 31
/-- The fields of FRelb read from a word. -/
def FRelb.read (w : Nat) : FRelb := ⟨.ofNat 5 (w / 2 ^ 12), .ofNat 6 (w / 2 ^ 22), .ofNat 1 (w / 2 ^ 31)⟩

/-- The bits of the fields of FBar, each at its place (R292 to R300). -/
def FBar.place (f : FBar) : Nat := f.a.toNat * 2 ^ 12 + f.s.toNat * 2 ^ 22 + f.w.toNat * 2 ^ 31
/-- The fields of FBar read from a word. -/
def FBar.read (w : Nat) : FBar := ⟨.ofNat 5 (w / 2 ^ 12), .ofNat 3 (w / 2 ^ 22), .ofNat 1 (w / 2 ^ 31)⟩

/-- The bits of the fields of FEnq, each at its place (R292 to R300). -/
def FEnq.place (f : FEnq) : Nat := f.a.toNat * 2 ^ 12 + f.b.toNat * 2 ^ 17 + f.q.toNat * 2 ^ 22
/-- The fields of FEnq read from a word. -/
def FEnq.read (w : Nat) : FEnq := ⟨.ofNat 5 (w / 2 ^ 12), .ofNat 5 (w / 2 ^ 17), .ofNat 4 (w / 2 ^ 22)⟩

/-- The bits of the fields of FEnqt, each at its place (R292 to R300). -/
def FEnqt.place (f : FEnqt) : Nat := f.a.toNat * 2 ^ 12 + f.b.toNat * 2 ^ 17 + f.q.toNat * 2 ^ 22 + f.k.toNat * 2 ^ 28
/-- The fields of FEnqt read from a word. -/
def FEnqt.read (w : Nat) : FEnqt := ⟨.ofNat 5 (w / 2 ^ 12), .ofNat 5 (w / 2 ^ 17), .ofNat 4 (w / 2 ^ 22), .ofNat 3 (w / 2 ^ 28)⟩

/-- The bits of the fields of FDeq, each at its place (R292 to R300). -/
def FDeq.place (f : FDeq) : Nat := f.d.toNat * 2 ^ 7 + f.a.toNat * 2 ^ 12 + f.q.toNat * 2 ^ 22
/-- The fields of FDeq read from a word. -/
def FDeq.read (w : Nat) : FDeq := ⟨.ofNat 5 (w / 2 ^ 7), .ofNat 5 (w / 2 ^ 12), .ofNat 4 (w / 2 ^ 22)⟩

/-- The bits of the fields of FDeqt, each at its place (R292 to R300). -/
def FDeqt.place (f : FDeqt) : Nat := f.d.toNat * 2 ^ 7 + f.a.toNat * 2 ^ 12 + f.q.toNat * 2 ^ 22 + f.k.toNat * 2 ^ 28
/-- The fields of FDeqt read from a word. -/
def FDeqt.read (w : Nat) : FDeqt := ⟨.ofNat 5 (w / 2 ^ 7), .ofNat 5 (w / 2 ^ 12), .ofNat 4 (w / 2 ^ 22), .ofNat 3 (w / 2 ^ 28)⟩

/-- The bits of the fields of FSpawn, each at its place (R292 to R300). -/
def FSpawn.place (f : FSpawn) : Nat := f.d.toNat * 2 ^ 7 + f.a.toNat * 2 ^ 12 + f.b.toNat * 2 ^ 17 + f.q.toNat * 2 ^ 22
/-- The fields of FSpawn read from a word. -/
def FSpawn.read (w : Nat) : FSpawn := ⟨.ofNat 5 (w / 2 ^ 7), .ofNat 5 (w / 2 ^ 12), .ofNat 5 (w / 2 ^ 17), .ofNat 4 (w / 2 ^ 22)⟩

/-- The bits of the fields of FQA, each at its place (R292 to R300). -/
def FQA.place (f : FQA) : Nat := f.a.toNat * 2 ^ 12 + f.q.toNat * 2 ^ 22
/-- The fields of FQA read from a word. -/
def FQA.read (w : Nat) : FQA := ⟨.ofNat 5 (w / 2 ^ 12), .ofNat 2 (w / 2 ^ 22)⟩

/-- The bits of the fields of FQ, each at its place (R292 to R300). -/
def FQ.place (f : FQ) : Nat := f.q.toNat * 2 ^ 22
/-- The fields of FQ read from a word. -/
def FQ.read (w : Nat) : FQ := ⟨.ofNat 2 (w / 2 ^ 22)⟩

/-- The bits of the fields of FQD, each at its place (R292 to R300). -/
def FQD.place (f : FQD) : Nat := f.d.toNat * 2 ^ 7 + f.q.toNat * 2 ^ 22
/-- The fields of FQD read from a word. -/
def FQD.read (w : Nat) : FQD := ⟨.ofNat 5 (w / 2 ^ 7), .ofNat 2 (w / 2 ^ 22)⟩

/-- The bits of the fields of FDset, each at its place (R292 to R300). -/
def FDset.place (f : FDset) : Nat := f.a.toNat * 2 ^ 12 + f.p.toNat * 2 ^ 17 + f.e.toNat * 2 ^ 20
/-- The fields of FDset read from a word. -/
def FDset.read (w : Nat) : FDset := ⟨.ofNat 5 (w / 2 ^ 12), .ofNat 3 (w / 2 ^ 17), .ofNat 8 (w / 2 ^ 20)⟩

/-- The bits of the fields of FChk, each at its place (R292 to R300). -/
def FChk.place (f : FChk) : Nat := f.a.toNat * 2 ^ 12 + f.b.toNat * 2 ^ 17 + f.p.toNat * 2 ^ 22 + f.n.toNat * 2 ^ 25
/-- The fields of FChk read from a word. -/
def FChk.read (w : Nat) : FChk := ⟨.ofNat 5 (w / 2 ^ 12), .ofNat 5 (w / 2 ^ 17), .ofNat 3 (w / 2 ^ 22), .ofNat 1 (w / 2 ^ 25)⟩

/-- The bits of the fields of FChkq, each at its place (R292 to R300). -/
def FChkq.place (f : FChkq) : Nat := f.x.toNat * 2 ^ 7 + f.y.toNat * 2 ^ 15
/-- The fields of FChkq read from a word. -/
def FChkq.read (w : Nat) : FChkq := ⟨.ofNat 8 (w / 2 ^ 7), .ofNat 8 (w / 2 ^ 15)⟩

/-- The bits of the fields of FChkp, each at its place (R292 to R300). -/
def FChkp.place (f : FChkp) : Nat := f.a.toNat * 2 ^ 12 + f.b.toNat * 2 ^ 17 + f.p.toNat * 2 ^ 22 + f.n.toNat * 2 ^ 25
/-- The fields of FChkp read from a word. -/
def FChkp.read (w : Nat) : FChkp := ⟨.ofNat 3 (w / 2 ^ 12), .ofNat 3 (w / 2 ^ 17), .ofNat 3 (w / 2 ^ 22), .ofNat 1 (w / 2 ^ 25)⟩

/-- The bits of the fields of SB, each at its place (R292 to R300). -/
def SB.place (f : SB) : Nat := f.p.toNat * 2 ^ 7 + f.n.toNat * 2 ^ 10 + f.o.toNat * 2 ^ 11
/-- The fields of SB read from a word. -/
def SB.read (w : Nat) : SB := ⟨.ofNat 3 (w / 2 ^ 7), .ofNat 1 (w / 2 ^ 10), .ofNat 21 (w / 2 ^ 11)⟩

/-- The bits of the fields of FBrr, each at its place (R292 to R300). -/
def FBrr.place (f : FBrr) : Nat := f.a.toNat * 2 ^ 12 + f.p.toNat * 2 ^ 22 + f.n.toNat * 2 ^ 25
/-- The fields of FBrr read from a word. -/
def FBrr.read (w : Nat) : FBrr := ⟨.ofNat 5 (w / 2 ^ 12), .ofNat 3 (w / 2 ^ 22), .ofNat 1 (w / 2 ^ 25)⟩

/-- The bits of the fields of FLoop, each at its place (R292 to R300). -/
def FLoop.place (f : FLoop) : Nat := f.a.toNat * 2 ^ 12 + f.i.toNat * 2 ^ 20
/-- The fields of FLoop read from a word. -/
def FLoop.read (w : Nat) : FLoop := ⟨.ofNat 5 (w / 2 ^ 12), .ofNat 12 (w / 2 ^ 20)⟩

/-- The bits of the fields of FLoopi, each at its place (R292 to R300). -/
def FLoopi.place (f : FLoopi) : Nat := f.c.toNat * 2 ^ 12 + f.l.toNat * 2 ^ 24
/-- The fields of FLoopi read from a word. -/
def FLoopi.read (w : Nat) : FLoopi := ⟨.ofNat 12 (w / 2 ^ 12), .ofNat 8 (w / 2 ^ 24)⟩

/-- The bits of the fields of FBrk, each at its place (R292 to R300). -/
def FBrk.place (f : FBrk) : Nat := f.p.toNat * 2 ^ 7 + f.n.toNat * 2 ^ 10
/-- The fields of FBrk read from a word. -/
def FBrk.read (w : Nat) : FBrk := ⟨.ofNat 3 (w / 2 ^ 7), .ofNat 1 (w / 2 ^ 10)⟩

/-- The bits of the fields of FLidx, each at its place (R292 to R300). -/
def FLidx.place (f : FLidx) : Nat := f.d.toNat * 2 ^ 7 + f.p.toNat * 2 ^ 17 + f.i.toNat * 2 ^ 20
/-- The fields of FLidx read from a word. -/
def FLidx.read (w : Nat) : FLidx := ⟨.ofNat 5 (w / 2 ^ 7), .ofNat 3 (w / 2 ^ 17), .ofNat 12 (w / 2 ^ 20)⟩

/-- The bits of the fields of FTrap, each at its place (R292 to R300). -/
def FTrap.place (f : FTrap) : Nat := f.p.toNat * 2 ^ 17 + f.i.toNat * 2 ^ 20
/-- The fields of FTrap read from a word. -/
def FTrap.read (w : Nat) : FTrap := ⟨.ofNat 3 (w / 2 ^ 17), .ofNat 12 (w / 2 ^ 20)⟩

/-- The bits of the fields of FMtsr, each at its place (R292 to R300). -/
def FMtsr.place (f : FMtsr) : Nat := f.a.toNat * 2 ^ 12 + f.p.toNat * 2 ^ 17 + f.i.toNat * 2 ^ 20
/-- The fields of FMtsr read from a word. -/
def FMtsr.read (w : Nat) : FMtsr := ⟨.ofNat 5 (w / 2 ^ 12), .ofNat 3 (w / 2 ^ 17), .ofNat 12 (w / 2 ^ 20)⟩

/-- The bits of the fields of FCop, each at its place (R292 to R300). -/
def FCop.place (f : FCop) : Nat := f.d.toNat * 2 ^ 7 + f.a.toNat * 2 ^ 12 + f.b.toNat * 2 ^ 17 + f.c.toNat * 2 ^ 22 + f.r.toNat * 2 ^ 29
/-- The fields of FCop read from a word. -/
def FCop.read (w : Nat) : FCop := ⟨.ofNat 5 (w / 2 ^ 7), .ofNat 5 (w / 2 ^ 12), .ofNat 5 (w / 2 ^ 17), .ofNat 7 (w / 2 ^ 22), .ofNat 1 (w / 2 ^ 29)⟩

/-- The bits of the fields of MF, each at its place (R292 to R300). -/
def MF.place (f : MF) : Nat := f.a.toNat * 2 ^ 4 + f.b.toNat * 2 ^ 12 + f.h.toNat * 2 ^ 20 + f.z.toNat * 2 ^ 22 + f.p.toNat * 2 ^ 28 + f.n.toNat * 2 ^ 31
/-- The fields of MF read from a word. -/
def MF.read (w : Nat) : MF := ⟨.ofNat 8 (w / 2 ^ 4), .ofNat 8 (w / 2 ^ 12), .ofNat 2 (w / 2 ^ 20), .ofNat 1 (w / 2 ^ 22), .ofNat 3 (w / 2 ^ 28), .ofNat 1 (w / 2 ^ 31)⟩

/-- The bits of the fields of FAccr, each at its place (R292 to R300). -/
def FAccr.place (f : FAccr) : Nat := f.f.toNat * 2 ^ 4 + f.h.toNat * 2 ^ 20 + f.d.toNat * 2 ^ 23 + f.r.toNat * 2 ^ 25 + f.p.toNat * 2 ^ 28 + f.n.toNat * 2 ^ 31
/-- The fields of FAccr read from a word. -/
def FAccr.read (w : Nat) : FAccr := ⟨.ofNat 5 (w / 2 ^ 4), .ofNat 2 (w / 2 ^ 20), .ofNat 2 (w / 2 ^ 23), .ofNat 3 (w / 2 ^ 25), .ofNat 3 (w / 2 ^ 28), .ofNat 1 (w / 2 ^ 31)⟩

/-- The bits of the fields of FAccw, each at its place (R292 to R300). -/
def FAccw.place (f : FAccw) : Nat := f.a.toNat * 2 ^ 4 + f.f.toNat * 2 ^ 12 + f.h.toNat * 2 ^ 20 + f.p.toNat * 2 ^ 28 + f.n.toNat * 2 ^ 31
/-- The fields of FAccw read from a word. -/
def FAccw.read (w : Nat) : FAccw := ⟨.ofNat 8 (w / 2 ^ 4), .ofNat 5 (w / 2 ^ 12), .ofNat 2 (w / 2 ^ 20), .ofNat 3 (w / 2 ^ 28), .ofNat 1 (w / 2 ^ 31)⟩

/-- The bits of the fields of FAccz, each at its place (R292 to R300). -/
def FAccz.place (f : FAccz) : Nat := f.h.toNat * 2 ^ 20 + f.p.toNat * 2 ^ 28 + f.n.toNat * 2 ^ 31
/-- The fields of FAccz read from a word. -/
def FAccz.read (w : Nat) : FAccz := ⟨.ofNat 2 (w / 2 ^ 20), .ofNat 3 (w / 2 ^ 28), .ofNat 1 (w / 2 ^ 31)⟩

/-- The bits of the fields of FMtrn, each at its place (R292 to R300). -/
def FMtrn.place (f : FMtrn) : Nat := f.a.toNat * 2 ^ 4 + f.h.toNat * 2 ^ 20 + f.d.toNat * 2 ^ 23 + f.p.toNat * 2 ^ 28 + f.n.toNat * 2 ^ 31
/-- The fields of FMtrn read from a word. -/
def FMtrn.read (w : Nat) : FMtrn := ⟨.ofNat 8 (w / 2 ^ 4), .ofNat 2 (w / 2 ^ 20), .ofNat 2 (w / 2 ^ 23), .ofNat 3 (w / 2 ^ 28), .ofNat 1 (w / 2 ^ 31)⟩

/-- The bits of the fields of ECpy, each at its place (R292 to R300). -/
def ECpy.place (f : ECpy) : Nat := f.b.toNat * 2 ^ 5 + f.u.toNat * 2 ^ 18 + f.l.toNat * 2 ^ 19 + f.w.toNat * 2 ^ 22 + f.p.toNat * 2 ^ 26 + f.n.toNat * 2 ^ 29
/-- The fields of ECpy read from a word. -/
def ECpy.read (w : Nat) : ECpy := ⟨.ofNat 5 (w / 2 ^ 5), .ofNat 1 (w / 2 ^ 18), .ofNat 1 (w / 2 ^ 19), .ofNat 4 (w / 2 ^ 22), .ofNat 3 (w / 2 ^ 26), .ofNat 1 (w / 2 ^ 29)⟩

/-- The bits of the fields of EApp, each at its place (R292 to R300). -/
def EApp.place (f : EApp) : Nat := f.b.toNat * 2 ^ 5 + f.q.toNat * 2 ^ 15 + f.u.toNat * 2 ^ 18 + f.l.toNat * 2 ^ 19 + f.w.toNat * 2 ^ 22 + f.p.toNat * 2 ^ 26 + f.n.toNat * 2 ^ 29
/-- The fields of EApp read from a word. -/
def EApp.read (w : Nat) : EApp := ⟨.ofNat 5 (w / 2 ^ 5), .ofNat 2 (w / 2 ^ 15), .ofNat 1 (w / 2 ^ 18), .ofNat 1 (w / 2 ^ 19), .ofNat 4 (w / 2 ^ 22), .ofNat 3 (w / 2 ^ 26), .ofNat 1 (w / 2 ^ 29)⟩

/-- The bits of the fields of ESrc, each at its place (R292 to R300). -/
def ESrc.place (f : ESrc) : Nat := f.b.toNat * 2 ^ 5 + f.o.toNat * 2 ^ 10 + f.u.toNat * 2 ^ 18 + f.l.toNat * 2 ^ 19 + f.w.toNat * 2 ^ 22 + f.p.toNat * 2 ^ 26 + f.n.toNat * 2 ^ 29
/-- The fields of ESrc read from a word. -/
def ESrc.read (w : Nat) : ESrc := ⟨.ofNat 5 (w / 2 ^ 5), .ofNat 7 (w / 2 ^ 10), .ofNat 1 (w / 2 ^ 18), .ofNat 1 (w / 2 ^ 19), .ofNat 4 (w / 2 ^ 22), .ofNat 3 (w / 2 ^ 26), .ofNat 1 (w / 2 ^ 29)⟩

/-- The bits of the fields of EZ, each at its place (R292 to R300). -/
def EZ.place (f : EZ) : Nat := f.b.toNat * 2 ^ 5 + f.p.toNat * 2 ^ 26 + f.n.toNat * 2 ^ 29
/-- The fields of EZ read from a word. -/
def EZ.read (w : Nat) : EZ := ⟨.ofNat 5 (w / 2 ^ 5), .ofNat 3 (w / 2 ^ 26), .ofNat 1 (w / 2 ^ 29)⟩

/-- The bits of the fields of EAcch, each at its place (R292 to R300). -/
def EAcch.place (f : EAcch) : Nat := f.b.toNat * 2 ^ 5 + f.o.toNat * 2 ^ 10 + f.p.toNat * 2 ^ 26 + f.n.toNat * 2 ^ 29
/-- The fields of EAcch read from a word. -/
def EAcch.read (w : Nat) : EAcch := ⟨.ofNat 5 (w / 2 ^ 5), .ofNat 7 (w / 2 ^ 10), .ofNat 3 (w / 2 ^ 26), .ofNat 1 (w / 2 ^ 29)⟩

/-- The bits of the fields of EFlushr, each at its place (R292 to R300). -/
def EFlushr.place (f : EFlushr) : Nat := f.p.toNat * 2 ^ 26 + f.n.toNat * 2 ^ 29
/-- The fields of EFlushr read from a word. -/
def EFlushr.read (w : Nat) : EFlushr := ⟨.ofNat 3 (w / 2 ^ 26), .ofNat 1 (w / 2 ^ 29)⟩

/-- The bits of the fields of EXst, each at its place (R292 to R300). -/
def EXst.place (f : EXst) : Nat := f.b.toNat * 2 ^ 5 + f.o.toNat * 2 ^ 10 + f.w.toNat * 2 ^ 22 + f.p.toNat * 2 ^ 26 + f.n.toNat * 2 ^ 29
/-- The fields of EXst read from a word. -/
def EXst.read (w : Nat) : EXst := ⟨.ofNat 5 (w / 2 ^ 5), .ofNat 7 (w / 2 ^ 10), .ofNat 4 (w / 2 ^ 22), .ofNat 3 (w / 2 ^ 26), .ofNat 1 (w / 2 ^ 29)⟩

/-- The bits of the fields of UP, each at its place (R292 to R300). -/
def UP.place (f : UP) : Nat := f.s.toNat * 2 ^ 5 + f.d.toNat * 2 ^ 13 + f.m.toNat * 2 ^ 15 + f.w.toNat * 2 ^ 18 + f.r.toNat * 2 ^ 20 + f.h.toNat * 2 ^ 23 + f.p.toNat * 2 ^ 27 + f.n.toNat * 2 ^ 30
/-- The fields of UP read from a word. -/
def UP.read (w : Nat) : UP := ⟨.ofNat 7 (w / 2 ^ 5), .ofNat 2 (w / 2 ^ 13), .ofNat 3 (w / 2 ^ 15), .ofNat 2 (w / 2 ^ 18), .ofNat 3 (w / 2 ^ 20), .ofNat 1 (w / 2 ^ 23), .ofNat 3 (w / 2 ^ 27), .ofNat 1 (w / 2 ^ 30)⟩

/-- The bits of the fields of UPscl, each at its place (R292 to R300). -/
def UPscl.place (f : UPscl) : Nat := f.s.toNat * 2 ^ 5 + f.d.toNat * 2 ^ 13 + f.m.toNat * 2 ^ 15 + f.w.toNat * 2 ^ 18 + f.p.toNat * 2 ^ 27 + f.n.toNat * 2 ^ 30
/-- The fields of UPscl read from a word. -/
def UPscl.read (w : Nat) : UPscl := ⟨.ofNat 7 (w / 2 ^ 5), .ofNat 2 (w / 2 ^ 13), .ofNat 3 (w / 2 ^ 15), .ofNat 2 (w / 2 ^ 18), .ofNat 3 (w / 2 ^ 27), .ofNat 1 (w / 2 ^ 30)⟩

/-- The bits of the fields of USp, each at its place (R292 to R300). -/
def USp.place (f : USp) : Nat := f.s.toNat * 2 ^ 5 + f.d.toNat * 2 ^ 13 + f.m.toNat * 2 ^ 15 + f.c.toNat * 2 ^ 24 + f.p.toNat * 2 ^ 27 + f.n.toNat * 2 ^ 30
/-- The fields of USp read from a word. -/
def USp.read (w : Nat) : USp := ⟨.ofNat 7 (w / 2 ^ 5), .ofNat 2 (w / 2 ^ 13), .ofNat 3 (w / 2 ^ 15), .ofNat 3 (w / 2 ^ 24), .ofNat 3 (w / 2 ^ 27), .ofNat 1 (w / 2 ^ 30)⟩

/-- The bits of the fields of VSlot, each at its place (R292 to R300). -/
def VSlot.place (f : VSlot) : Nat := f.opA.toNat + f.opB.toNat * 2 ^ 6 + f.opC.toNat * 2 ^ 12 + f.srcA.toNat * 2 ^ 18 + f.srcB.toNat * 2 ^ 26 + f.srcC.toNat * 2 ^ 34 + f.srcD.toNat * 2 ^ 42 + f.dst.toNat * 2 ^ 50 + f.ty.toNat * 2 ^ 53 + f.rnd.toNat * 2 ^ 55 + f.p.toNat * 2 ^ 58 + f.n.toNat * 2 ^ 61
/-- The fields of VSlot read from a word. -/
def VSlot.read (w : Nat) : VSlot := ⟨.ofNat 6 w, .ofNat 6 (w / 2 ^ 6), .ofNat 6 (w / 2 ^ 12), .ofNat 8 (w / 2 ^ 18), .ofNat 8 (w / 2 ^ 26), .ofNat 8 (w / 2 ^ 34), .ofNat 8 (w / 2 ^ 42), .ofNat 3 (w / 2 ^ 50), .ofNat 2 (w / 2 ^ 53), .ofNat 3 (w / 2 ^ 55), .ofNat 3 (w / 2 ^ 58), .ofNat 1 (w / 2 ^ 61)⟩

/-- Reads an operation with base word op from w: its fields, when every bit that is no field of it
equals the base word (R289: a field that the form does not use must be zero). -/
def takeFields {α : Type} (w op : Nat) (mk : α → Instr) (rd : Nat → α) (place : α → Nat) : Option Instr :=
  if op + place (rd w) = w then some (mk (rd w)) else none

/-- An operation without fields: the whole word is its base word. -/
def takePlain (w op : Nat) (i : Instr) : Option Instr := if op = w then some i else none

/-- The scalar operation in a word (R293, R294): the opcode table of the slot, unused bits zero; none for every other word. -/
def scalarOp (w : Nat) : Option Instr :=
  match w % 128 with
  | 0x0 => takePlain w 0x0 .nop
  | 0x1 => takeFields w 0x1 .add SR3.read SR3.place
  | 0x2 => takeFields w 0x2 .sub_ SR3.read SR3.place
  | 0x3 => takeFields w 0x3 .mul SR3.read SR3.place
  | 0x4 => takeFields w 0x4 .mulh SR3.read SR3.place
  | 0x5 => takeFields w 0x5 .mulhn SR3.read SR3.place
  | 0x6 => takeFields w 0x6 .div SR3.read SR3.place
  | 0x7 => takeFields w 0x7 .divn SR3.read SR3.place
  | 0x8 => takeFields w 0x8 .rem_ SR3.read SR3.place
  | 0x9 => takeFields w 0x9 .remn SR3.read SR3.place
  | 0xa => takeFields w 0xa .and_ SR3.read SR3.place
  | 0xb => takeFields w 0xb .or_ SR3.read SR3.place
  | 0xc => takeFields w 0xc .xor_ SR3.read SR3.place
  | 0xd => takeFields w 0xd .andn SR3.read SR3.place
  | 0xe => takeFields w 0xe .shl SR3.read SR3.place
  | 0xf => takeFields w 0xf .shr SR3.read SR3.place
  | 0x10 => takeFields w 0x10 .sar SR3.read SR3.place
  | 0x11 => takeFields w 0x11 .ror SR3.read SR3.place
  | 0x12 => takeFields w 0x12 .min_ SR3.read SR3.place
  | 0x13 => takeFields w 0x13 .max_ SR3.read SR3.place
  | 0x14 => takeFields w 0x14 .minn SR3.read SR3.place
  | 0x15 => takeFields w 0x15 .maxn SR3.read SR3.place
  | 0x16 => takeFields w 0x16 .clz SR2.read SR2.place
  | 0x17 => takeFields w 0x17 .popc SR2.read SR2.place
  | 0x18 => takeFields w 0x18 .sel_ SR3.read SR3.place
  | 0x19 => takeFields w 0x19 .bfx FBfx.read FBfx.place
  | 0x1a => takeFields w 0x1a .bfi SR3.read SR3.place
  | 0x1c => takeFields w 0x1c .cmp FCmp.read FCmp.place
  | 0x1d => takeFields w 0x1d .plog FPlog.read FPlog.place
  | 0x20 => takeFields w 0x20 .addi SI.read SI.place
  | 0x21 => takeFields w 0x21 .andi SI.read SI.place
  | 0x22 => takeFields w 0x22 .ori SI.read SI.place
  | 0x23 => takeFields w 0x23 .xori SI.read SI.place
  | 0x24 => takeFields w 0x24 .shli SIsh.read SIsh.place
  | 0x25 => takeFields w 0x25 .shri SIsh.read SIsh.place
  | 0x26 => takeFields w 0x26 .sari SIsh.read SIsh.place
  | 0x27 => takeFields w 0x27 .muli SI.read SI.place
  | 0x28 => takeFields w 0x28 .cmpi FCmpi.read FCmpi.place
  | 0x29 => takeFields w 0x29 .movi SW.read SW.place
  | 0x2a => takeFields w 0x2a .movh20 SW.read SW.place
  | 0x2b => takeFields w 0x2b .movh40 SW.read SW.place
  | 0x30 => takeFields w 0x30 .lds FLds.read FLds.place
  | 0x31 => takeFields w 0x31 .sts FSts.read FSts.place
  | 0x34 => takeFields w 0x34 .ld FLd.read FLd.place
  | 0x36 => takeFields w 0x36 .st FSt.read FSt.place
  | 0x38 => takeFields w 0x38 .xlat FXlat.read FXlat.place
  | 0x39 => takeFields w 0x39 .hinv FHinv.read FHinv.place
  | 0x3a => takeFields w 0x3a .hgen FHgen.read FHgen.place
  | 0x3b => takeFields w 0x3b .htst FHtst.read FHtst.place
  | 0x3d => takeFields w 0x3d .zset FZset.read FZset.place
  | 0x3e => takeFields w 0x3e .zget FZget.read FZget.place
  | 0x40 => takeFields w 0x40 .atom FAtom.read FAtom.place
  | 0x44 => takeFields w 0x44 .fence FFence.read FFence.place
  | 0x45 => (takeFields w 0x45 .waitGen FWaitGen.read FWaitGen.place) <|> (takeFields w 0x1045 .waitBuf FWaitBuf.read FWaitBuf.place) <|> (takeFields w 0x2045 .waitHdl FWaitHdl.read FWaitHdl.place)
  | 0x46 => takeFields w 0x46 .swset FAB.read FAB.place
  | 0x47 => takeFields w 0x47 .swadd FAB.read FAB.place
  | 0x48 => takeFields w 0x48 .acqb FAcqb.read FAcqb.place
  | 0x49 => takeFields w 0x49 .acqbt FAcqbt.read FAcqbt.place
  | 0x4a => takeFields w 0x4a .relb FRelb.read FRelb.place
  | 0x4b => takeFields w 0x4b .bar FBar.read FBar.place
  | 0x50 => takeFields w 0x50 .enq FEnq.read FEnq.place
  | 0x51 => takeFields w 0x51 .enqt FEnqt.read FEnqt.place
  | 0x52 => takeFields w 0x52 .deq FDeq.read FDeq.place
  | 0x53 => takeFields w 0x53 .deqt FDeqt.read FDeqt.place
  | 0x54 => takeFields w 0x54 .spawn FSpawn.read FSpawn.place
  | 0x58 => takeFields w 0x58 .qcfg FQA.read FQA.place
  | 0x59 => takeFields w 0x59 .qspl FQA.read FQA.place
  | 0x5a => takeFields w 0x5a .qusp FQ.read FQ.place
  | 0x5b => takeFields w 0x5b .qdist FQD.read FQD.place
  | 0x5c => takeFields w 0x5c .dset FDset.read FDset.place
  | 0x5d => takeFields w 0x5d .dget FDset.read FDset.place
  | 0x5e => takeFields w 0x5e .bmode FQA.read FQA.place
  | 0x5f => takeFields w 0x5f .brel FA.read FA.place
  | 0x60 => takeFields w 0x60 .bacq FA.read FA.place
  | 0x61 => takeFields w 0x61 .chk FChk.read FChk.place
  | 0x62 => takeFields w 0x62 .chkq FChkq.read FChkq.place
  | 0x63 => takeFields w 0x63 .chkp FChkp.read FChkp.place
  | 0x68 => takeFields w 0x68 .br SB.read SB.place
  | 0x69 => takeFields w 0x69 .brr FBrr.read FBrr.place
  | 0x6a => takeFields w 0x6a .call SB.read SB.place
  | 0x6b => takeFields w 0x6b .ret FBrr.read FBrr.place
  | 0x6c => takeFields w 0x6c .loop_ FLoop.read FLoop.place
  | 0x6d => takeFields w 0x6d .loopi FLoopi.read FLoopi.place
  | 0x6e => takeFields w 0x6e .brk FBrk.read FBrk.place
  | 0x6f => takeFields w 0x6f .lidx FLidx.read FLidx.place
  | 0x70 => takeFields w 0x70 .trap FTrap.read FTrap.place
  | 0x71 => takePlain w 0x71 .eret
  | 0x72 => takeFields w 0x72 .mfsr FLidx.read FLidx.place
  | 0x73 => takeFields w 0x73 .mtsr FMtsr.read FMtsr.place
  | 0x74 => takePlain w 0x74 .halt
  | 0x77 => (takeFields w 0x77 .leaseReq SR2.read SR2.place) <|> (takeFields w 0x4000077 .leaseEnd SR2.read SR2.place)
  | 0x78 => takeFields w 0x78 .cop FCop.read FCop.place
  | _ => none

/-- The matrix operation in a word (R298): the opcode table of the slot, unused bits zero; none for every other word. -/
def matrixOp (w : Nat) : Option Instr :=
  match w % 16 with
  | 0x1 => takeFields w 0x1 .mma MF.read MF.place
  | 0x2 => takeFields w 0x2 .mmas MF.read MF.place
  | 0x3 => takeFields w 0x3 .mmag MF.read MF.place
  | 0x4 => takeFields w 0x4 .accr FAccr.read FAccr.place
  | 0x5 => takeFields w 0x5 .accw FAccw.read FAccw.place
  | 0x6 => takeFields w 0x6 .accz FAccz.read FAccz.place
  | 0x7 => takeFields w 0x7 .mtrn FMtrn.read FMtrn.place
  | _ => none

/-- The engine operation in a word (R299): the opcode table of the slot, unused bits zero; none for every other word. -/
def engineOp (w : Nat) : Option Instr :=
  match w % 32 with
  | 0x1 => takeFields w 0x1 .cpy ECpy.read ECpy.place
  | 0x2 => takeFields w 0x2 .cpyt ECpy.read ECpy.place
  | 0x3 => takeFields w 0x3 .cpym EApp.read EApp.place
  | 0x4 => takeFields w 0x4 .ldq EApp.read EApp.place
  | 0x5 => takeFields w 0x5 .stq ESrc.read ESrc.place
  | 0x6 => takeFields w 0x6 .gath ESrc.read ESrc.place
  | 0x7 => takeFields w 0x7 .scat ESrc.read ESrc.place
  | 0x8 => takeFields w 0x8 .pref EZ.read EZ.place
  | 0x9 => takeFields w 0x9 .pin EZ.read EZ.place
  | 0xa => takeFields w 0xa .unpn EZ.read EZ.place
  | 0xb => takeFields w 0xb .acch EAcch.read EAcch.place
  | 0xc => takeFields w 0xc .flushr EFlushr.read EFlushr.place
  | 0xd => takeFields w 0xd .xst EXst.read EXst.place
  | 0xe => takeFields w 0xe .subs EApp.read EApp.place
  | 0xf => takeFields w 0xf .rets EXst.read EXst.place
  | 0x10 => takeFields w 0x10 .coll EXst.read EXst.place
  | _ => none

/-- The pack operation in a word (R300): the opcode table of the slot, unused bits zero; none for every other word. -/
def packOp (w : Nat) : Option Instr :=
  match w % 32 with
  | 0x1 => takeFields w 0x1 .unpk UP.read UP.place
  | 0x2 => takeFields w 0x2 .pack UP.read UP.place
  | 0x3 => takeFields w 0x3 .pscl UPscl.read UPscl.place
  | 0x4 => takeFields w 0x4 .spmx USp.read USp.place
  | 0x5 => takeFields w 0x5 .spex USp.read USp.place
  | _ => none

/-- The slot units of a bundle (R287). -/
inductive SlotKind where
  | scalar
  | vector
  | matrix
  | engine
  | pack
  deriving DecidableEq, Repr

/-- The width of a slot in bits (R287). -/
def SlotKind.width : SlotKind → Nat
  | .vector => 64
  | _ => 32

/-- The opcode field of a slot word, as SR.EINFO records it (R272). -/
def SlotKind.opcode (k : SlotKind) (w : Nat) : Nat :=
  match k with
  | .scalar => w % 128
  | .vector => w % 64
  | .matrix => w % 16
  | .engine => w % 32
  | .pack => w % 32

/-- The stage operation that an opcode of the V slot names (R296). -/
def vStageOp (st : VStage) (w : VSlot) : Option Instr :=
  match w.op st with
  | 0x0 => some (.pass_ st w)
  | 0x1 => some (.fadd st w)
  | 0x2 => some (.fsub st w)
  | 0x3 => some (.fmul st w)
  | 0x4 => some (.faddf st w)
  | 0x5 => some (.fsubf st w)
  | 0x6 => some (.fmin st w)
  | 0x7 => some (.fmax st w)
  | 0x8 => some (.fabs st w)
  | 0x9 => some (.fneg st w)
  | 0xa => some (.fcps st w)
  | 0xb => some (.fcmp st w)
  | 0xc => some (.fsel st w)
  | 0xd => some (.frnd st w)
  | 0xe => some (.rcp st w)
  | 0xf => some (.rsq st w)
  | 0x10 => some (.exp2 st w)
  | 0x11 => some (.log2 st w)
  | 0x12 => some (.cvt st w)
  | 0x13 => some (.cvti st w)
  | 0x14 => some (.cvtf st w)
  | 0x18 => some (.iadd st w)
  | 0x19 => some (.isub st w)
  | 0x1a => some (.imul st w)
  | 0x1b => some (.imulh st w)
  | 0x1c => some (.imin st w)
  | 0x1d => some (.imax st w)
  | 0x1e => some (.iminn st w)
  | 0x1f => some (.imaxn st w)
  | 0x20 => some (.iand st w)
  | 0x21 => some (.ior st w)
  | 0x22 => some (.ixor st w)
  | 0x23 => some (.ishl st w)
  | 0x24 => some (.ishr st w)
  | 0x25 => some (.isar st w)
  | 0x26 => some (.icmp st w)
  | 0x27 => some (.isel st w)
  | 0x30 => some (.rsum st w)
  | 0x31 => some (.rmax st w)
  | 0x32 => some (.rmin st w)
  | 0x33 => some (.bcast st w)
  | 0x34 => some (.perm st w)
  | 0x35 => some (.lrot st w)
  | 0x36 => some (.amax st w)
  | _ => none

/-- The V slot in a 64-bit word, when its reserved bits are zero and it is legal (R295). -/
def vectorSlot (w : Nat) : Option VSlot :=
  let v := VSlot.read w
  if w < 2 ^ 62 && v.wf then some v else none

/-- The three stage operations of a V slot, in the order VA, VB, VC (R295). -/
def VSlot.stages (v : VSlot) : List Instr :=
  (vStageOp .va v).toList ++ (vStageOp .vb v).toList ++ (vStageOp .vc v).toList

/-- Decodes the word of one slot: its operations, or none where the word traps ILLEGAL_OPCODE (R289). A
V slot holds three operations, every other slot one. -/
def decodeSlot (k : SlotKind) (w : Nat) : Option (List Instr) :=
  let one (i : Option Instr) : Option (List Instr) :=
    match i with
    | some i => if i.wellFormed then some [i] else none
    | none => none
  match k with
  | .scalar => one (scalarOp w)
  | .vector => (vectorSlot w).map VSlot.stages
  | .matrix => one (matrixOp w)
  | .engine => one (engineOp w)
  | .pack => one (packOp w)

/-- The header of a bundle (R288). -/
structure Header where
  /-- POP, one bit for each queue. -/
  pop : BitVec 4
  stall : Nat
  pp : Bool
  seg : Bool
  rdv : Bool
  yld : Bool
  lend : Bool
  /-- SV, the slot-valid bits of S0, S1, V, M, E, U. -/
  sv : BitVec 6
  bpred : BitVec 3
  bneg : Bool
  deriving DecidableEq, Repr

/-- The header fields of a bundle's low word (R288). -/
def Header.read (w : Nat) : Header :=
  { pop := .ofNat 4 w, stall := bits w 4 4, pp := bit w 8, seg := bit w 9, rdv := bit w 10,
    yld := bit w 11, lend := bit w 12, sv := .ofNat 6 (w / 2 ^ 13), bpred := .ofNat 3 (w / 2 ^ 19),
    bneg := bit w 22 }

/-- A decoded bundle: the operation of each slot that is valid (R287). -/
structure Bundle where
  hdr : Header
  s0 : Option Instr
  s1 : Option Instr
  v : Option VSlot
  m : Option Instr
  e : Option Instr
  u : Option Instr
  deriving DecidableEq, Repr

/-- Why a bundle does not decode (R289): a reserved header bit, bits in a slot that is not valid (the
slot as SR.CAUSE.SLOT), or an illegal operation (its slot, opcode and V stage). -/
inductive BundleError where
  | header
  | emptySlot (slot : Nat)
  | opcode (slot op stage : Nat)
  deriving DecidableEq, Repr

/-- The place of a slot in a bundle: its number as SR.CAUSE.SLOT (R270), its unit, its lowest bit and its
bit of SV (R287, R288). -/
structure SlotPlace where
  num : Nat
  kind : SlotKind
  lo : Nat
  sv : Nat
  deriving DecidableEq, Repr

/-- The six slots in the order S0, S1, V, M, E, U (R264, R287). -/
def slotPlaces : List SlotPlace :=
  [⟨1, .scalar, 32, 13⟩, ⟨2, .scalar, 64, 14⟩, ⟨3, .vector, 96, 15⟩, ⟨4, .matrix, 160, 16⟩,
   ⟨5, .engine, 192, 17⟩, ⟨6, .pack, 224, 18⟩]

/-- The word of a slot. -/
def SlotPlace.word (p : SlotPlace) (w : Nat) : Nat := bits w p.lo p.kind.width

/-- Whether the slot's SV bit is set. -/
def SlotPlace.valid (p : SlotPlace) (w : Nat) : Bool := bit w p.sv

/-- The operations that only S1 accepts (R291). -/
def s1Only : Instr → Bool
  | .br _ => true
  | .brr _ => true
  | .call _ => true
  | .ret _ => true
  | .loop_ _ => true
  | .loopi _ => true
  | .brk _ => true
  | _ => false

/-- LOOP and LOOPI, which a bundle that carries LEND does not accept (R379). -/
def loopOp : Instr → Bool
  | .loop_ _ => true
  | .loopi _ => true
  | _ => false

/-- The opcode field of an illegal slot word and its V stage, as SR.EINFO records them (R272, R289): of a V slot those of the stage that
is illegal. DEDUCED (log 7). -/
def SlotKind.badOpcode (k : SlotKind) (w : Nat) : Nat × Nat :=
  match k with
  | .vector =>
    let st : VStage := if w < 2 ^ 62 then (VSlot.read w).badStage else .va
    ((VSlot.read w).op st, st.num)
  | k => (k.opcode w, 0)

/-- The decode error of a valid slot, if its word is no operation the slot accepts (R289, R291, R379). -/
def SlotPlace.error (p : SlotPlace) (lend : Bool) (w : Nat) : Option BundleError :=
  let x := p.word w
  match decodeSlot p.kind x with
  | none => some (.opcode p.num (p.kind.badOpcode x).1 (p.kind.badOpcode x).2)
  | some l =>
    if l.any (fun i => (p.num == 1 && s1Only i) || (lend && loopOp i)) then
      some (.opcode p.num (p.kind.opcode x) 0)
    else none

/-- Decodes a bundle: ILLEGAL_BUNDLE is decided before ILLEGAL_OPCODE, slots in order (R264, R289). -/
def decodeBundle (w : Nat) : Except BundleError Bundle :=
  if bits w 23 9 ≠ 0 then .error .header
  else
    match slotPlaces.find? (fun p => !p.valid w && p.word w != 0) with
    | some p => .error (.emptySlot p.num)
    | none =>
      let h := Header.read w
      match (slotPlaces.filter (fun p => p.valid w)).findSome? (fun p => p.error h.lend w) with
      | some e => .error e
      | none =>
        let get (p : SlotPlace) : Option Instr :=
          if p.valid w then (decodeSlot p.kind (p.word w)).bind List.head? else none
        .ok { hdr := h
              s0 := get ⟨1, .scalar, 32, 13⟩
              s1 := get ⟨2, .scalar, 64, 14⟩
              v := if bit w 15 then vectorSlot (bits w 96 64) else none
              m := get ⟨4, .matrix, 160, 16⟩
              e := get ⟨5, .engine, 192, 17⟩
              u := get ⟨6, .pack, 224, 18⟩ }

/-- The slot in which a word of the opcode table stands: its word does not name it, so the first of S, M,
E and U whose decoder accepts the word; 64 bits are a V slot. DESIGN CHOICE (log 8). -/
def tableSlot (nbits w : Nat) : Option SlotKind :=
  if nbits = 64 then (if (decodeSlot .vector w).isSome then some .vector else none)
  else [SlotKind.scalar, .matrix, .engine, .pack].find? (fun k => (decodeSlot k w).isSome)

/-- The instruction that the decoder reads from a word of the opcode table (a V slot: its VA stage). -/
def decodeTableWord (nbits w : Nat) : Option Instr :=
  (tableSlot nbits w).bind (fun k => (decodeSlot k w).bind List.head?)

/-- The slot that accepts an operation; none for a device step (R287, R291). -/
def Instr.slotKind : Instr → Option SlotKind
  | .nop => some .scalar
  | .add _ => some .scalar
  | .sub_ _ => some .scalar
  | .mul _ => some .scalar
  | .mulh _ => some .scalar
  | .mulhn _ => some .scalar
  | .div _ => some .scalar
  | .divn _ => some .scalar
  | .rem_ _ => some .scalar
  | .remn _ => some .scalar
  | .and_ _ => some .scalar
  | .or_ _ => some .scalar
  | .xor_ _ => some .scalar
  | .andn _ => some .scalar
  | .shl _ => some .scalar
  | .shr _ => some .scalar
  | .sar _ => some .scalar
  | .ror _ => some .scalar
  | .min_ _ => some .scalar
  | .max_ _ => some .scalar
  | .minn _ => some .scalar
  | .maxn _ => some .scalar
  | .clz _ => some .scalar
  | .popc _ => some .scalar
  | .sel_ _ => some .scalar
  | .bfx _ => some .scalar
  | .bfi _ => some .scalar
  | .cmp _ => some .scalar
  | .plog _ => some .scalar
  | .addi _ => some .scalar
  | .andi _ => some .scalar
  | .ori _ => some .scalar
  | .xori _ => some .scalar
  | .shli _ => some .scalar
  | .shri _ => some .scalar
  | .sari _ => some .scalar
  | .muli _ => some .scalar
  | .cmpi _ => some .scalar
  | .movi _ => some .scalar
  | .movh20 _ => some .scalar
  | .movh40 _ => some .scalar
  | .lds _ => some .scalar
  | .sts _ => some .scalar
  | .ld _ => some .scalar
  | .st _ => some .scalar
  | .xlat _ => some .scalar
  | .hinv _ => some .scalar
  | .hgen _ => some .scalar
  | .htst _ => some .scalar
  | .zset _ => some .scalar
  | .zget _ => some .scalar
  | .atom _ => some .scalar
  | .fence _ => some .scalar
  | .waitGen _ => some .scalar
  | .waitBuf _ => some .scalar
  | .waitHdl _ => some .scalar
  | .swset _ => some .scalar
  | .swadd _ => some .scalar
  | .acqb _ => some .scalar
  | .acqbt _ => some .scalar
  | .relb _ => some .scalar
  | .bar _ => some .scalar
  | .enq _ => some .scalar
  | .enqt _ => some .scalar
  | .deq _ => some .scalar
  | .deqt _ => some .scalar
  | .spawn _ => some .scalar
  | .qcfg _ => some .scalar
  | .qspl _ => some .scalar
  | .qusp _ => some .scalar
  | .qdist _ => some .scalar
  | .dset _ => some .scalar
  | .dget _ => some .scalar
  | .bmode _ => some .scalar
  | .brel _ => some .scalar
  | .bacq _ => some .scalar
  | .chk _ => some .scalar
  | .chkq _ => some .scalar
  | .chkp _ => some .scalar
  | .br _ => some .scalar
  | .brr _ => some .scalar
  | .call _ => some .scalar
  | .ret _ => some .scalar
  | .loop_ _ => some .scalar
  | .loopi _ => some .scalar
  | .brk _ => some .scalar
  | .lidx _ => some .scalar
  | .trap _ => some .scalar
  | .eret => some .scalar
  | .mfsr _ => some .scalar
  | .mtsr _ => some .scalar
  | .halt => some .scalar
  | .leaseReq _ => some .scalar
  | .leaseEnd _ => some .scalar
  | .cop _ => some .scalar
  | .mma _ => some .matrix
  | .mmas _ => some .matrix
  | .mmag _ => some .matrix
  | .accr _ => some .matrix
  | .accw _ => some .matrix
  | .accz _ => some .matrix
  | .mtrn _ => some .matrix
  | .cpy _ => some .engine
  | .cpyt _ => some .engine
  | .cpym _ => some .engine
  | .ldq _ => some .engine
  | .stq _ => some .engine
  | .gath _ => some .engine
  | .scat _ => some .engine
  | .pref _ => some .engine
  | .pin _ => some .engine
  | .unpn _ => some .engine
  | .acch _ => some .engine
  | .flushr _ => some .engine
  | .xst _ => some .engine
  | .subs _ => some .engine
  | .rets _ => some .engine
  | .coll _ => some .engine
  | .unpk _ => some .pack
  | .pack _ => some .pack
  | .pscl _ => some .pack
  | .spmx _ => some .pack
  | .spex _ => some .pack
  | .pass_ _ _ => some .vector
  | .fadd _ _ => some .vector
  | .fsub _ _ => some .vector
  | .fmul _ _ => some .vector
  | .faddf _ _ => some .vector
  | .fsubf _ _ => some .vector
  | .fmin _ _ => some .vector
  | .fmax _ _ => some .vector
  | .fabs _ _ => some .vector
  | .fneg _ _ => some .vector
  | .fcps _ _ => some .vector
  | .fcmp _ _ => some .vector
  | .fsel _ _ => some .vector
  | .frnd _ _ => some .vector
  | .rcp _ _ => some .vector
  | .rsq _ _ => some .vector
  | .exp2 _ _ => some .vector
  | .log2 _ _ => some .vector
  | .cvt _ _ => some .vector
  | .cvti _ _ => some .vector
  | .cvtf _ _ => some .vector
  | .iadd _ _ => some .vector
  | .isub _ _ => some .vector
  | .imul _ _ => some .vector
  | .imulh _ _ => some .vector
  | .imin _ _ => some .vector
  | .imax _ _ => some .vector
  | .iminn _ _ => some .vector
  | .imaxn _ _ => some .vector
  | .iand _ _ => some .vector
  | .ior _ _ => some .vector
  | .ixor _ _ => some .vector
  | .ishl _ _ => some .vector
  | .ishr _ _ => some .vector
  | .isar _ _ => some .vector
  | .icmp _ _ => some .vector
  | .isel _ _ => some .vector
  | .rsum _ _ => some .vector
  | .rmax _ _ => some .vector
  | .rmin _ _ => some .vector
  | .bcast _ _ => some .vector
  | .perm _ _ => some .vector
  | .lrot _ _ => some .vector
  | .amax _ _ => some .vector
  | _ => none

/-- The encoder: the word of an operation in its slot (R292 to R300). A device step has no encoding. -/
def encode : Instr → Option Nat
  | .nop => some 0x0
  | .add f => some (0x1 + f.place)
  | .sub_ f => some (0x2 + f.place)
  | .mul f => some (0x3 + f.place)
  | .mulh f => some (0x4 + f.place)
  | .mulhn f => some (0x5 + f.place)
  | .div f => some (0x6 + f.place)
  | .divn f => some (0x7 + f.place)
  | .rem_ f => some (0x8 + f.place)
  | .remn f => some (0x9 + f.place)
  | .and_ f => some (0xa + f.place)
  | .or_ f => some (0xb + f.place)
  | .xor_ f => some (0xc + f.place)
  | .andn f => some (0xd + f.place)
  | .shl f => some (0xe + f.place)
  | .shr f => some (0xf + f.place)
  | .sar f => some (0x10 + f.place)
  | .ror f => some (0x11 + f.place)
  | .min_ f => some (0x12 + f.place)
  | .max_ f => some (0x13 + f.place)
  | .minn f => some (0x14 + f.place)
  | .maxn f => some (0x15 + f.place)
  | .clz f => some (0x16 + f.place)
  | .popc f => some (0x17 + f.place)
  | .sel_ f => some (0x18 + f.place)
  | .bfx f => some (0x19 + f.place)
  | .bfi f => some (0x1a + f.place)
  | .cmp f => some (0x1c + f.place)
  | .plog f => some (0x1d + f.place)
  | .addi f => some (0x20 + f.place)
  | .andi f => some (0x21 + f.place)
  | .ori f => some (0x22 + f.place)
  | .xori f => some (0x23 + f.place)
  | .shli f => some (0x24 + f.place)
  | .shri f => some (0x25 + f.place)
  | .sari f => some (0x26 + f.place)
  | .muli f => some (0x27 + f.place)
  | .cmpi f => some (0x28 + f.place)
  | .movi f => some (0x29 + f.place)
  | .movh20 f => some (0x2a + f.place)
  | .movh40 f => some (0x2b + f.place)
  | .lds f => some (0x30 + f.place)
  | .sts f => some (0x31 + f.place)
  | .ld f => some (0x34 + f.place)
  | .st f => some (0x36 + f.place)
  | .xlat f => some (0x38 + f.place)
  | .hinv f => some (0x39 + f.place)
  | .hgen f => some (0x3a + f.place)
  | .htst f => some (0x3b + f.place)
  | .zset f => some (0x3d + f.place)
  | .zget f => some (0x3e + f.place)
  | .atom f => some (0x40 + f.place)
  | .fence f => some (0x44 + f.place)
  | .waitGen f => some (0x45 + f.place)
  | .waitBuf f => some (0x1045 + f.place)
  | .waitHdl f => some (0x2045 + f.place)
  | .swset f => some (0x46 + f.place)
  | .swadd f => some (0x47 + f.place)
  | .acqb f => some (0x48 + f.place)
  | .acqbt f => some (0x49 + f.place)
  | .relb f => some (0x4a + f.place)
  | .bar f => some (0x4b + f.place)
  | .enq f => some (0x50 + f.place)
  | .enqt f => some (0x51 + f.place)
  | .deq f => some (0x52 + f.place)
  | .deqt f => some (0x53 + f.place)
  | .spawn f => some (0x54 + f.place)
  | .qcfg f => some (0x58 + f.place)
  | .qspl f => some (0x59 + f.place)
  | .qusp f => some (0x5a + f.place)
  | .qdist f => some (0x5b + f.place)
  | .dset f => some (0x5c + f.place)
  | .dget f => some (0x5d + f.place)
  | .bmode f => some (0x5e + f.place)
  | .brel f => some (0x5f + f.place)
  | .bacq f => some (0x60 + f.place)
  | .chk f => some (0x61 + f.place)
  | .chkq f => some (0x62 + f.place)
  | .chkp f => some (0x63 + f.place)
  | .br f => some (0x68 + f.place)
  | .brr f => some (0x69 + f.place)
  | .call f => some (0x6a + f.place)
  | .ret f => some (0x6b + f.place)
  | .loop_ f => some (0x6c + f.place)
  | .loopi f => some (0x6d + f.place)
  | .brk f => some (0x6e + f.place)
  | .lidx f => some (0x6f + f.place)
  | .trap f => some (0x70 + f.place)
  | .eret => some 0x71
  | .mfsr f => some (0x72 + f.place)
  | .mtsr f => some (0x73 + f.place)
  | .halt => some 0x74
  | .leaseReq f => some (0x77 + f.place)
  | .leaseEnd f => some (0x4000077 + f.place)
  | .cop f => some (0x78 + f.place)
  | .mma f => some (0x1 + f.place)
  | .mmas f => some (0x2 + f.place)
  | .mmag f => some (0x3 + f.place)
  | .accr f => some (0x4 + f.place)
  | .accw f => some (0x5 + f.place)
  | .accz f => some (0x6 + f.place)
  | .mtrn f => some (0x7 + f.place)
  | .cpy f => some (0x1 + f.place)
  | .cpyt f => some (0x2 + f.place)
  | .cpym f => some (0x3 + f.place)
  | .ldq f => some (0x4 + f.place)
  | .stq f => some (0x5 + f.place)
  | .gath f => some (0x6 + f.place)
  | .scat f => some (0x7 + f.place)
  | .pref f => some (0x8 + f.place)
  | .pin f => some (0x9 + f.place)
  | .unpn f => some (0xa + f.place)
  | .acch f => some (0xb + f.place)
  | .flushr f => some (0xc + f.place)
  | .xst f => some (0xd + f.place)
  | .subs f => some (0xe + f.place)
  | .rets f => some (0xf + f.place)
  | .coll f => some (0x10 + f.place)
  | .unpk f => some (0x1 + f.place)
  | .pack f => some (0x2 + f.place)
  | .pscl f => some (0x3 + f.place)
  | .spmx f => some (0x4 + f.place)
  | .spex f => some (0x5 + f.place)
  | .pass_ _ w => some w.place
  | .fadd _ w => some w.place
  | .fsub _ w => some w.place
  | .fmul _ w => some w.place
  | .faddf _ w => some w.place
  | .fsubf _ w => some w.place
  | .fmin _ w => some w.place
  | .fmax _ w => some w.place
  | .fabs _ w => some w.place
  | .fneg _ w => some w.place
  | .fcps _ w => some w.place
  | .fcmp _ w => some w.place
  | .fsel _ w => some w.place
  | .frnd _ w => some w.place
  | .rcp _ w => some w.place
  | .rsq _ w => some w.place
  | .exp2 _ w => some w.place
  | .log2 _ w => some w.place
  | .cvt _ w => some w.place
  | .cvti _ w => some w.place
  | .cvtf _ w => some w.place
  | .iadd _ w => some w.place
  | .isub _ w => some w.place
  | .imul _ w => some w.place
  | .imulh _ w => some w.place
  | .imin _ w => some w.place
  | .imax _ w => some w.place
  | .iminn _ w => some w.place
  | .imaxn _ w => some w.place
  | .iand _ w => some w.place
  | .ior _ w => some w.place
  | .ixor _ w => some w.place
  | .ishl _ w => some w.place
  | .ishr _ w => some w.place
  | .isar _ w => some w.place
  | .icmp _ w => some w.place
  | .isel _ w => some w.place
  | .rsum _ w => some w.place
  | .rmax _ w => some w.place
  | .rmin _ w => some w.place
  | .bcast _ w => some w.place
  | .perm _ w => some w.place
  | .lrot _ w => some w.place
  | .amax _ w => some w.place
  | _ => none

/-- The bundle that holds one slot word and nothing else: its SV bit and the word (R287, R288). -/
def oneSlotBundle (k : SlotKind) (w : Nat) : Nat :=
  match k with
  | .scalar => 2 ^ 14 + w * 2 ^ 64
  | .vector => 2 ^ 15 + w * 2 ^ 96
  | .matrix => 2 ^ 16 + w * 2 ^ 160
  | .engine => 2 ^ 17 + w * 2 ^ 192
  | .pack => 2 ^ 18 + w * 2 ^ 224

end Sys2Proof
end

