-- ==== Sys2Proof/Machine/Map.lean ====
section
/-! DEFINITION. Two data structures of the state: sparse tables with ascending keys, and byte memory in
canonical form. -/

namespace Sys2Proof.Machine

/-- A table by number: pairs in ascending key order. What an absent key stands for is said at each use. -/
abbrev Map (α : Type) := List (Nat × α)

/-- The entry of key k, if it has one. -/
def Map.get? {α : Type} (m : Map α) (k : Nat) : Option α :=
  match m with
  | [] => none
  | (j, v) :: m' => if j = k then some v else Map.get? m' k

/-- The entry of key k, or d where it has none. -/
def Map.getD {α : Type} (m : Map α) (k : Nat) (d : α) : α := (Map.get? m k).getD d

/-- The table with v at key k, at its place in ascending order. -/
def Map.set {α : Type} (m : Map α) (k : Nat) (v : α) : Map α :=
  match m with
  | [] => [(k, v)]
  | (j, u) :: m' =>
    if k < j then (k, v) :: (j, u) :: m'
    else if k = j then (k, v) :: m'
    else (j, u) :: Map.set m' k v

/-- The table without key k. -/
def Map.erase {α : Type} (m : Map α) (k : Nat) : Map α := m.filter (fun e => e.1 != k)

/-- Byte memory: (address, byte) pairs, addresses strictly rising, no entry equal to what an unlisted
address reads as. -/
abbrev Memory := List Host.Cell

/-- What an unlisted address reads as: zero. In scratchpad this is the reset value (R146); in DRAM and
host memory it is a DESIGN CHOICE (log 2), for the device does not clear DRAM (R285). -/
def unlistedByte : Byte := 0

/-- One byte of memory. -/
def Memory.byte (m : Memory) (a : Nat) : Byte :=
  match m with
  | [] => unlistedByte
  | (b, v) :: m' => if b = a then v else if a < b then unlistedByte else Memory.byte m' a

/-- The memory with byte v at address a, in canonical form. -/
def Memory.put (m : Memory) (a : Nat) (v : Byte) : Memory :=
  match m with
  | [] => if v = unlistedByte then [] else [(a, v)]
  | (b, u) :: m' =>
    if a < b then (if v = unlistedByte then (b, u) :: m' else (a, v) :: (b, u) :: m')
    else if a = b then (if v = unlistedByte then m' else (a, v) :: m')
    else (b, u) :: Memory.put m' a v

/-- Every address listed is at least lo, addresses rise strictly and no entry is the unlisted byte. -/
def Memory.wfFrom (m : Memory) (lo : Nat) : Bool :=
  match m with
  | [] => true
  | (a, v) :: m' => decide (lo ≤ a) && v != unlistedByte && Memory.wfFrom m' (a + 1)

/-- The canonical form of a memory. -/
def Memory.wf (m : Memory) : Bool := m.wfFrom 0

/-- n bytes from address a, little-endian, as a number (R7). -/
def Memory.read (m : Memory) (a n : Nat) : Nat :=
  match n with
  | 0 => 0
  | n + 1 => (m.byte a).toNat + 256 * Memory.read m (a + 1) n

/-- n bytes of the number v stored from address a, little-endian (R7). -/
def Memory.write (m : Memory) (a n v : Nat) : Memory :=
  match n with
  | 0 => m
  | n + 1 => Memory.write (m.put a (.ofNat 8 v)) (a + 1) n (v / 256)

end Sys2Proof.Machine
end

