-- ==== Sys2Proof/Machine/State.lean ====
section
/-! DEFINITION. The state of the KQ9: the berths, cores, clusters and the device, and the model's own
fields (the agenda, the counters of steps and of free values, the bundle being issued). -/

namespace Sys2Proof.Machine

/-! ## Berths (R30 to R37) -/

/-- A handle register (R158). -/
structure Handle where
  vpn : BitVec 40
  frame : BitVec 36
  psz : Bool
  rd : Bool
  w : Bool
  atm : Bool
  crit : Bool
  ms : Bool
  gen : BitVec 12
  poison : BitVec 16
  fault : BitVec 8
  ready : Bool
  valid : Bool
  loaded : Bool
  /-- The translation found a leaf, whose generation GEN is. -/
  leaf : Bool
  deriving DecidableEq, Repr

/-- A handle that XLAT has not loaded. -/
def Handle.zero : Handle :=
  { vpn := 0, frame := 0, psz := false, rd := false, w := false, atm := false, crit := false, ms := false,
    gen := 0, poison := 0, fault := 0, ready := false, valid := false, loaded := false, leaf := false }

/-- An entry of the loop stack (R30). -/
structure LoopEntry where
  start : BitVec 11
  stop : BitVec 11
  remaining : BitVec 32
  index : BitVec 32
  deriving DecidableEq, Repr

/-- The splice states of an operand queue (R97). -/
inductive Splice where
  | localQ
  | openQ
  | splicing
  | spliced
  | unsplicing
  | fed
  deriving DecidableEq, Repr

/-- An operand queue of a berth: its configuration word (R85), counters (R87), splice state (R97), the
queue at the other end of its splice (R96, R98) and the marks of PACK and SPMX (R399, R423). -/
structure Queue where
  configured : Bool
  cfg : Word
  head : BitVec 16
  tail : BitVec 16
  splice : Splice
  /-- The other end of the splice: core, berth and queue. -/
  peerCore : Nat
  peerBerth : Nat
  peerQueue : Nat
  /-- Of a SPLICED queue: base, size and capacity of the consumer's queue (R96). -/
  peerCfg : Word
  /-- Of a SPLICED queue: the remote tail T and the mirrored head M (R98). -/
  remoteTail : BitVec 16
  mirrored : BitVec 16
  /-- The tail's entry awaits the second half of a 4-bit PACK (R399). -/
  packPending : Bool
  /-- The row count of SPMX (R423). -/
  rowCount : Nat
  /-- The counter of the entry that a PACK or SPMX has pending. -/
  pendingAt : BitVec 16
  /-- Subscribed by SUBS (R430). -/
  subscribed : Bool
  deriving DecidableEq, Repr

/-- An unconfigured queue (R37). -/
def Queue.zero : Queue :=
  { configured := false, cfg := 0, head := 0, tail := 0, splice := .localQ, peerCore := 0, peerBerth := 0,
    peerQueue := 0, peerCfg := 0, remoteTail := 0, mirrored := 0, packPending := false, rowCount := 0,
    pendingAt := 0, subscribed := false }

/-- The resumable state of a berth (R30): registers, loop stack, handles, predicates, queues and the berth
special registers. -/
structure Regs where
  pc : BitVec 11
  loops : List LoopEntry
  g : Vector Word 32
  h : Vector Handle 16
  k : Vector Bool 8
  q : Vector Queue 4
  /-- SR.MODE (R304). -/
  mode : Word
  /-- SR.PBOUND.BOUND and COUNT (R56). -/
  bound : BitVec 32
  count : BitVec 32
  /-- SR.CHKSB (R302). -/
  chksb : Word
  /-- SR.FLAGS (R144). -/
  flags : BitVec 7
  /-- SR.CAUSE, SR.EPC and SR.EINFO (R270, R271). -/
  cause : Word
  epc : Word
  einfo : Word
  /-- SR.SEGPC: REWINDS, RETRY and ENTRY (R240). -/
  rewinds : BitVec 8
  retry : Bool
  entry : BitVec 11
  /-- SR.ACCQ: QUOTA and REFUSED (R202). -/
  quota : BitVec 16
  refused : BitVec 16
  deriving DecidableEq, Repr

/-- The registers at device reset. DESIGN CHOICE where the spec gives no value (log 3): the values of a
task's start (R37). -/
def Regs.reset : Regs :=
  { pc := 0, loops := [], g := Vector.replicate 32 0, h := Vector.replicate 16 Handle.zero,
    k := Vector.replicate 8 false, q := Vector.replicate 4 Queue.zero, mode := 0, bound := 0, count := 0,
    chksb := 0, flags := 0, cause := 0, epc := 0, einfo := 0, rewinds := 0, retry := false, entry := 0,
    quota := 8, refused := 0 }

/-- The berth states of R35. -/
inductive BerthStatus where
  | free
  | ready
  | stalled
  | parked
  | evicting
  | draining
  deriving DecidableEq, Repr

/-- Where a task came from (R37): a start-vector entry, an iteration of a loop-nest record, or a packet. -/
inductive TaskSource where
  | startVector (index : Nat)
  | iteration (record number : Nat)
  | packet (cluster tq : Nat)
  deriving DecidableEq, Repr

/-- A task (R37): its launch slot, source, priorities, and what its retirement notifies (R66, R69, R73). -/
structure Task where
  slot : Nat
  /-- The number of the task in the device's life. -/
  uid : Nat
  source : TaskSource
  /-- The task ages while it waits; false for a NOAGE packet before its first placement (R76). -/
  ages : Bool
  entry : Nat
  basePrio : Nat
  effPrio : Nat
  /-- The words for g1 upwards, and for g24 to g29 of a loop-nest iteration (R38, R69). -/
  args : List Word
  origins : List Word
  succs : List Word
  failSucc : Bool
  /-- The context slot from which the task was last resumed (R34). -/
  ctxSlot : Nat
  /-- The berths of its core on which it has been before: their residual tables may hold its addends (R61). -/
  tables : List Nat
  /-- The member of a redundant pair: the core and berth of its partner (R248). -/
  partner : Option (Nat × Nat)
  deriving DecidableEq, Repr

/-- A register whose result is outstanding (R301): its file (0 g, 1 h, 2 k) and number, and the request
that will write it. -/
structure Pending where
  file : Nat
  num : Nat
  req : Nat
  deriving DecidableEq, Repr

/-- A result the checking scoreboard follows (R302): its register, its nominal latency, and the distance
from its producer to the berth's last issued bundle. -/
structure Produced where
  file : Nat
  num : Nat
  latency : Nat
  distance : Nat
  deriving DecidableEq, Repr

/-- A trap: its code, class, the slot it names, the TIMM field, and the record for SR.EINFO (R270, R272). -/
structure Trap where
  code : Nat
  slot : Nat
  timm : Nat
  info : Nat
  deriving DecidableEq, Repr

/-- What holds a berth PARKED (R35): an unanswered page fault of a handle, with its trap (R164); an answer FAIL, whose
trap the berth takes at its next boundary (R280), and at the same bundle the other member of its pair (R250); a partner's rewind
(R247). -/
inductive Park where
  | pageFault (handle : Nat) (write : Bool) (trap : Trap)
  | failed (trap : Trap)
  | partnerFailed (trap : Trap)
  | partnerRewind
  deriving DecidableEq, Repr

/-- The answer FAIL is due to a member of a pair at the other's bundle (R250). -/
def Park.fails (p : Park) : Bool :=
  match p with
  | .partnerFailed _ => true
  | _ => false

/-- A berth with it stands at a bollard, a segment entry or HALT, and is considered there again (R247). -/
def Park.atEntry (p : Park) : Bool :=
  match p with
  | .partnerFailed _ => true
  | .partnerRewind => true
  | _ => false

/-- An item that an open segment holds (R241), with the register values it needs at its release. -/
inductive Held where
  /-- ST: the physical address, size, data and the handle's MS attribute, and the address in its region. -/
  | store (pa size data : Nat) (ms : Bool)
  /-- STS: scratchpad address, size and data. -/
  | sts (addr size data : Nat)
  | swset (addr value : Nat)
  | swadd (addr value : Nat)
  /-- RELB: ring, address and side (R409). -/
  | relb (ring addr : Nat) (consumer : Bool)
  /-- An append to a SPLICED queue: the queue, the remote counter, and the entry's bytes, sideband and unit
  (R98). -/
  | splicedAppend (queue counter bytes sideband unit : Nat)
  /-- ENQ or SPAWN: the target's accepted reservation, its cluster and queue, and the packet (R353). -/
  | enq (reservation cluster tq : Nat) (packet : List Word)
  /-- An engine command, by the number of its record. -/
  | command (id : Nat)
  deriving DecidableEq, Repr

/-- A pending error of the rollback class (R244): the trap that a second failure records, and whether it
concerns an access already released (R245). -/
structure RollError where
  trap : Trap
  released : Bool
  deriving DecidableEq, Repr

/-- A Stevedore subscription of SUBS (R429 to R431). -/
structure Sub where
  queue : Nat
  desc : BitVec 512
  /-- The staging words, for the comparison of R431. -/
  z0 : Word
  z1 : Word
  padu : Bool
  sync : Option Nat
  esize : Nat
  /-- Tiles whose push has begun, tiles landed, and entries returned (R430). -/
  begun : Nat
  landed : Nat
  returned : Nat
  /-- A push was stopped (R431). -/
  stopped : Bool
  /-- Established by an attempt that was rewound (R431). -/
  rewound : Bool
  /-- It was established in the open segment; it has ended, in the segment that established it (R431). -/
  fresh : Bool
  ended : Bool
  deriving DecidableEq, Repr

/-- A request that an operation makes before its bundle issues (R96, R353): its slot, the number of its message, and
the answer: a reason of refusal, 0 for acceptance (R272). -/
structure Asked where
  slot : Nat
  id : Nat
  answer : Option Nat
  /-- The queue that QSPL splices; the packet of an ENQ or SPAWN, read before its place is asked for (R353). -/
  queue : Option Nat
  packet : List Word
  deriving DecidableEq, Repr

/-- A place that an engine command reads or writes, in bits: virtual memory, scratchpad of a cluster, or a value of the
scale sideband of the entry at a scratchpad address (R127). -/
inductive Place where
  | virt (bit : Nat)
  | spad (bit : Nat)
  | side (addr value : Nat)
  deriving DecidableEq, Repr

/-- A movement of an element of some bits; without a source, the value given is written (R181). -/
structure Xfer where
  src : Option Place
  value : Nat
  dst : Place
  width : Nat
  /-- The data given carry a poison mark (R163). -/
  mark : Bool
  deriving DecidableEq, Repr

/-- A dimension of a copy nest, by destination dimension (R181). -/
structure NestDim where
  count : Nat
  padlo : Nat
  padhi : Nat
  sstr : Int
  dstr : Int
  deriving DecidableEq, Repr

/-- A copy nest (R180, R181): spaces are true for scratchpad. -/
structure CopyNest where
  srcSpad : Bool
  src : Nat
  dstSpad : Bool
  dst : Nat
  esz : Nat
  padv : Nat
  padu : Bool
  dims : List NestDim
  deriving DecidableEq, Repr

/-- A tile transfer (R184, R185): the descriptor, the origin, the row indices of GATH and SCAT, and the address and
size of the queue entry. -/
structure TileJob where
  desc : BitVec 512
  origin : List Int
  rows : Option (List Int)
  entry : Nat
  esize : Nat
  padu : Bool
  deriving DecidableEq, Repr

/-- The contribution of a COLL (R337, R338). -/
structure CollJob where
  /-- The home cluster; in package p of the pod, another than its own, 128·(p + 1) more. -/
  cluster : Nat
  ident : Nat
  n : Nat
  rank : Nat
  comb : Nat
  kind : Nat
  root : Nat
  fmt : Nat
  destSpad : Bool
  dest : Nat
  size : Nat
  bytes : Nat
  mark : Bool
  deriving DecidableEq, Repr

/-- What an engine command does. -/
inductive Work where
  | copy (n : CopyNest)
  | load (t : TileJob)
  /-- STQ, SCAT and RETS: the entry's bytes, and the poison marks of its 128-byte blocks as bits, once it has been read. -/
  | store (t : TileJob) (bytes marks : Nat)
  /-- PREF, PIN, UNPN over a range (R401, R436). -/
  | lines (start length : Nat)
  /-- ACCH (R316): the line, the addends as 64-bit values packed from lane 0, and the marks. -/
  | acch (line addends marks : Nat) (quota : Nat)
  | flushr
  /-- XST (R440): the bytes and the marks of their blocks, once they have been read, their number, the receiving core, group, offset and banks. -/
  | xst (bytes marks length core ident offset bankA bankB : Nat)
  | coll (j : CollJob)
  /-- Bytes of a COLL's result on their way to its DEST, and the a64 lanes that saturated, as bits (R230). -/
  | result (toSpad : Bool) (dest size bytes : Nat) (mark : Bool) (lanes : Nat)
  deriving DecidableEq, Repr

/-- The result of a walk (R155, R156): the fault it carries (0, PAGE_FAULT, PROT or POISON), and of a valid
leaf its place, word and page size. -/
structure Walk where
  fault : Nat
  leafAt : Nat
  leaf : Nat
  large : Bool
  deriving DecidableEq, Repr

/-- A source entry that a command has still to read: its queue and counter, and its scratchpad address and size (R94). -/
structure Source where
  queue : Nat
  counter : BitVec 16
  addr : Nat
  size : Nat
  deriving DecidableEq, Repr

/-- An engine command (R162, R189): its berth, launch slot, E opcode and path, what it does and how far it has come. -/
structure Command where
  core : Nat
  berth : Nat
  slot : Nat
  /-- The number of the issuing task. -/
  task : Nat
  op : Nat
  path : Nat
  work : Work
  /-- The sync word that counts its bytes (R112), the buffer it releases (R179). -/
  sync : Option Nat
  rel : Option (Nat × Nat)
  /-- The queue it appends to, the counter and the entry's address, for its presence bit (R95). -/
  append : Option (Nat × BitVec 16 × Nat)
  /-- The attributes that its tensor requires of every page (R177). -/
  needCrit : Bool
  needMs : Bool
  /-- Held by an open segment (R241). -/
  held : Bool
  /-- A push of a subscription, by its number (R430). -/
  push : Option Nat
  done : Nat
  /-- The granules checked for the transfers that come next. -/
  checked : Bool
  /-- GEN of each region at its first translation (R162), by VA / 2^16. -/
  gens : Map Nat
  suspended : Bool
  /-- A scale came from a poisoned granule (R175). -/
  marked : Bool
  /-- Granules of physical memory to which marked data went (R163), and the physical granule of each of virtual memory that it has
  written. -/
  tainted : List Nat
  frames : Map Nat
  /-- The clock of its path at issue and the greatest timestamp of its accesses (R194). -/
  pts : Nat
  maxTs : Nat
  /-- The flags it merges when it completes (R145). -/
  flags : BitVec 7
  /-- Its request is on the way: an ACCH, XST or COLL sent. -/
  sent : Bool
  /-- Transfers, by their places in order, whose writes were discarded in a released bank (R50), and whether a discarded write
  has been recorded. -/
  dropped : List Nat
  lost : Bool
  /-- The granules begun and not yet left, by twice their number and one more for a destination, with their translations
  (R162). -/
  begun : Map Walk
  /-- The place of the command among those issued: of a held one, its release (R183, R242). -/
  order : Nat
  /-- The source entries that it has still to read after its release: the data, and the row indices of a SCAT (R94, R412, R418,
  R426, R440). -/
  unread : List Source
  deriving DecidableEq, Repr

/-- The issue of a bundle: the berth, the registers and latches at its start (R290), and what its slots
have decided so far. -/
structure Issue where
  core : Nat
  berth : Nat
  /-- The slot of the operation, as SR.CAUSE.SLOT (R270). -/
  slot : Nat
  hdr : Header
  start : Regs
  /-- SR.STATUS.SUP at the bundle's start. -/
  sup : Bool
  z : Vector Word 32
  /-- The tensor descriptors and the berth's view of scratchpad at the bundle's start (R290). -/
  d : Map (BitVec 512)
  spad : Memory
  /-- The latches at the bundle's start (R295). -/
  ya : BitVec 1024
  yb : BitVec 1024
  yc : BitVec 1024
  vsel : BitVec 64
  /-- The inputs of the last V stage, for a fused stage (R359). -/
  inA : BitVec 1024
  inB : BitVec 1024
  /-- The flags of the chain so far (R346). -/
  chainFlags : BitVec 7
  /-- A taken branch, BRK, ERET or HALT stands in the bundle (R290, R380). -/
  taken : Bool
  deriving DecidableEq, Repr

/-- The synchronising operations of a bundle that has issued, performed when its one-bundle segment commits (R239, R242):
the bundle's issue, and each with its slot and the registers that a later slot of the bundle writes as well (R290). -/
structure Deferred where
  iss : Issue
  ops : List (Nat × Instr × List (Nat × Nat))
  deriving DecidableEq, Repr

/-- A berth (R30 to R37). -/
structure Berth where
  status : BerthStatus
  regs : Regs
  /-- The bypass registers, lanes packed from lane 0 (R31), and the select latch. -/
  ya : BitVec 1024
  yb : BitVec 1024
  yc : BitVec 1024
  vsel : BitVec 64
  /-- SR.STATUS (R268). -/
  sup : Bool
  chkl : Bool
  ltol : Bool
  red : Bool
  /-- SR.EINFO holds an engine record not yet read, and the record held in supervisor mode (R271). -/
  einfoUnread : Bool
  heldEngine : Option Word
  /-- SR.NETSEL (R235), SR.RINGCFG as last written (R107), SR.LEASE KIND and INDEX (R307). -/
  netsel : Word
  ringcfg : Word
  lease : Option (Nat × Nat)
  task : Option Task
  /-- The task is to retire as failed (R265). -/
  failed : Bool
  /-- SR.CAUSE as the last entry of a handler wrote it (R277). -/
  entryCause : Word
  /-- Core cycles since the task was placed or resumed (R52). -/
  resident : Nat
  /-- Core cycles since the berth last issued (R301). -/
  sinceIssue : Nat
  /-- Core cycles stalled on each WAIT of the bundle at the PC, by its slot (R114). -/
  waited : Map Nat
  outstanding : List Pending
  produced : List Produced
  /-- A trap of PBOUND is due (R56). -/
  pboundDue : Bool
  /-- The checkpoint of the open segment and its z-independent state (R243), if a segment is open. -/
  ckpt : Option Regs
  held : List Held
  /-- Tile written whole in the open segment, rows as bits (R243). -/
  accWritten0 : BitVec 32
  accWritten1 : BitVec 32
  error : Option RollError
  /-- The last bundle held a synchronising operation; it carried PP or YLD: what the next bundle's start means. -/
  afterSync : Bool
  afterYield : Bool
  /-- The last bundle carried PP. -/
  afterPre : Bool
  /-- The last bundle held a control operation, whose outcome the members of a redundant pair compare (R249). -/
  steered : Bool
  /-- The entry of the open segment follows a PP or YLD bundle or begins the task: it reads its bypass registers as zero, on
  a second attempt too (R31, R244, log 33). -/
  freshEntry : Bool
  /-- The first bundle of a task, after resumption, after ERET or in a handler: a segment entry (R239). -/
  entryNext : Bool
  park : Option Park
  /-- Why the berth is to be evicted at its next eligible bundle (R52): 0 none, 1 victim of pre-emption,
  2 time slice, 3 lease, 4 host request. -/
  evictCause : Nat
  /-- A BAR or QUSP that awaits its completion (R328, R100): the number of its message. -/
  awaiting : Option Nat
  /-- The address whose revocation by HINV is not complete everywhere (R161, R370). -/
  revoking : Option Nat
  /-- The berth waits at a BAR (R328). -/
  atBar : Bool
  asked : List Asked
  /-- The slots of the bundle at the PC whose WAIT's timeout has expired (R114). -/
  timedOut : List Nat
  subs : Map Sub
  /-- Clocks of the eight paths (R192). -/
  pts : Vector Nat 8
  /-- The partners, as core and berth, whose rewind the berth is to wait for at its next bollard or entry; the berth
  executes a rewound segment (R247). -/
  rewinders : List (Nat × Nat)
  rewinding : Bool
  /-- The last attempt to issue waits on absent entries of FED queues or on full SPLICED queues, by number (R247). -/
  waitsOn : List Nat
  /-- The scratchpad address of the absent entry that the next bundle waits for. -/
  awaits : Option Nat
  /-- The open segment is to commit before the berth goes on (R242, R246). -/
  closing : Bool
  /-- Of a redundant pair: bundles issued since placement, and a comparison that failed in the open segment (R249). -/
  issued : Nat
  diverged : Bool
  /-- The number of the engine command issued last, and the commands of the open segment as they issued (R249). -/
  lastE : Option Nat
  segE : List Command
  /-- Bundles issued when the open segment began, and whether its comparisons have been made (R242, R249). -/
  segIssued : Nat
  matched : Bool
  deferred : Option Deferred
  /-- STALLED on a WAIT of a limited timeout: its slot and the timeout (R114). -/
  waiting : Option (Nat × Nat)
  /-- The checks of the waiting bundle that have passed, in the order of R264, and stay passed. -/
  passed : Nat
  deriving DecidableEq, Repr

/-- A free berth at reset. -/
def Berth.reset : Berth :=
  { status := .free, regs := Regs.reset, ya := 0, yb := 0, yc := 0, vsel := 0, sup := false, chkl := false,
    ltol := false, red := false, einfoUnread := false, heldEngine := none, netsel := 0, ringcfg := 0,
    lease := none, task := none, failed := false, entryCause := 0, resident := 0, sinceIssue := 0, waited := [],
    outstanding := [], produced := [], pboundDue := false, ckpt := none, held := [], accWritten0 := 0,
    accWritten1 := 0, error := none, afterSync := false, afterYield := false, afterPre := false, steered := false, freshEntry := false,
    entryNext := false,
    park := none, evictCause := 0, awaiting := none, revoking := none, atBar := false, asked := [],
    timedOut := [], subs := [], pts := Vector.replicate 8 0, rewinders := [], rewinding := false, waitsOn := [],
    awaits := none, closing := false, issued := 0, diverged := false, lastE := none, segE := [], segIssued := 0, matched := false, deferred := none,
    waiting := none, passed := 0 }

/-! ## Cores (R15, R19, R31, R32, R76, R79) -/

/-- A bundle of instruction memory and the launch slot it belongs to (R47). -/
structure ImemCell where
  word : Nat
  owner : Option Nat
  deriving DecidableEq, Repr

/-- The service states of a core (R79). -/
inductive Service where
  | inService
  | leasePending
  | leased
  | retired
  deriving DecidableEq, Repr

/-- A task that waits for a core (R76): evicted on it, or offered to it by the launch unit or a walker;
since when it has waited, in cycles of the core, and its effective priority (R59). -/
structure Candidate where
  task : Task
  evicted : Bool
  /-- The context slot that holds the record of an evicted task (R53). -/
  ctxSlot : Nat
  /-- The cycle from which aging counts, in cycles of the core. -/
  since : Nat
  /-- The berth whose residual table must have no send in progress before resumption (R206). -/
  oldBerth : Nat
  /-- The engine record kept with the context slot; SR.EINFO as saved holds one not yet read (R271). -/
  heldEngine : Option Word
  unread : Bool
  /-- Sticky flags raised while the task was evicted, merged at resumption (R145). -/
  lateFlags : BitVec 7
  deriving DecidableEq, Repr

/-- A result of a V, M or U operation on its way to its queue or accumulator row (R92, R145). -/
structure Writeback where
  core : Nat
  berth : Nat
  /-- The destination: the queue and its counter, and the scratchpad address and size of the entry; size 0 for
  a result that goes to no entry. -/
  queue : Nat
  counter : BitVec 16
  addr : Nat
  esize : Nat
  /-- The first byte written in the entry, the number of bytes, and the bytes: the whole entry, or a half of a
  4-bit PACK (R399). -/
  first : Nat
  count : Nat
  bytes : Nat
  sideband : Nat
  setsPresence : Bool
  unit : Nat
  flags : BitVec 7
  /-- An accumulator-row destination: tile and row (R297). -/
  accRow : Option (Nat × Nat)
  deriving DecidableEq, Repr

/-- A matrix operation queued at a half-array, operands captured at issue (R94, R130). -/
structure MatrixOp where
  /-- 0 MMA, 1 MMAS, 2 MMAG (R389 to R392), 3 ACCR, 4 ACCW, 5 ACCZ (R319), 6 MTRN (R394). -/
  kind : Nat
  berth : Nat
  /-- The slot for SR.CAUSE: 4, or 5 for the follow-on of a CPYM (R270). -/
  slot : Nat
  fmtA : Nat
  fmtB : Nat
  zero : Bool
  /-- SR.MODE.RES of the issuing berth (R134). -/
  res : Bool
  /-- The A entry as a little-endian number and its sideband; for a follow-on the address of each operand entry that has
  not landed yet (R186). -/
  a : Nat
  scaleA : Nat
  addrA : Option Nat
  addrB : Option Nat
  /-- The rows of A in groups, each with the bytes and sideband of its B entry (R187); MMA and MMAS have one. -/
  groups : List (Nat × Nat × Nat)
  /-- ACCR and ACCW: the first row and the number of rows; ACCR: the rounding mode and the result (R319). -/
  first : Nat
  rows : Nat
  mode : Nat
  /-- ACCR, MTRN: the append reserved at issue. -/
  dest : Option Writeback
  /-- The CPYM of a follow-on: it is dropped if that command stops (R343). A follow-on of the odd member of a pair has none before the
  even member has issued its own (R249). -/
  after : Option Nat
  /-- The bundle that issued it, as Berth.issued counts the bundles. -/
  bundle : Nat
  deriving DecidableEq, Repr

/-- A tile core (R15, R19). -/
structure Core where
  berths : Vector Berth 8
  imem : Map ImemCell
  z : Vector Word 32
  /-- The tensor descriptors d0 to d255 (R168); absent ones read zero. -/
  d : Map (BitVec 512)
  /-- The accumulator tiles: element 1024·tile + 32·row + column (R32); an absent element reads the value
  that the hold found. -/
  acc : Map (BitVec 32)
  /-- The number of the hold that found the tiles unspecified (R32); none before the first. -/
  accHold : Option Nat
  /-- The berth that holds the matrix engine, and whether its hold ends with its operations (R32). -/
  hold : Option Nat
  holdEnding : Bool
  /-- The half the holder last used (R298). -/
  lastHalf : Option Nat
  /-- The operations queued at H0 and at H1, oldest first (R130). -/
  half0 : List MatrixOp
  half1 : List MatrixOp
  /-- SR.TVEC (R269) and SR.CYCLE (R306). -/
  tvec : Word
  cycle : Word
  /-- The berth that last issued (R78). -/
  lastIssued : Nat
  service : Service
  /-- The tasks that wait for this core (R76). -/
  waiting : List Candidate
  /-- The berth designated as victim (R77). -/
  victim : Option Nat
  /-- The greatest clock any berth has held on each path (R194). -/
  floors : Vector Nat 8
  deriving DecidableEq, Repr

/-- A core at reset. -/
def Core.reset : Core :=
  { berths := Vector.replicate 8 Berth.reset, imem := [], z := Vector.replicate 32 0, d := [], acc := [],
    accHold := none, hold := none, holdEnding := false, lastHalf := none, half0 := [], half1 := [],
    tvec := 0, cycle := 0, lastIssued := 7, service := .inService, waiting := [], victim := none,
    floors := Vector.replicate 8 0 }

/-! ## Clusters (R146 to R150, R85 to R111) -/

/-- The modes of a bank (R146). -/
inductive BankMode where
  | scratchpad
  | cache
  | fifo
  deriving DecidableEq, Repr

/-- A bank of a cluster (R48, R146 to R150). -/
structure Bank where
  mode : BankMode
  owner : Option Nat
  /-- Launch slots pending for the bank, oldest first (R48), and those that hold its BMODE grant (R42). -/
  pending : List Nat
  bmodeGrant : List Nat
  /-- The blocks of a FIFO-mode bank with their poison marks, head first (R150). -/
  fifo : List (Nat × Bool)
  deriving DecidableEq, Repr

/-- A bank at reset (R146). -/
def Bank.reset : Bank := { mode := .scratchpad, owner := none, pending := [], bmodeGrant := [], fifo := [] }

/-- The states of a buffer (R108). -/
inductive BufferState where
  | empty
  | filling
  | full
  | draining
  deriving DecidableEq, Repr

/-- A buffer ring (R107, R108). -/
structure Ring where
  cfg : Word
  owner : Option Nat
  states : List BufferState
  producer : Nat
  consumer : Nat
  /-- The berths, as core and berth, that wait to acquire at the producer's and the consumer's counter, in order of arrival
  (R109). -/
  producers : List (Nat × Nat)
  consumers : List (Nat × Nat)
  /-- Of each buffer that a copy made FULL, the greatest timestamp of the copy (R192, R321). -/
  times : Map Nat
  deriving DecidableEq, Repr

/-- A packet in a task queue: its words (R66, R67). -/
structure Packet where
  words : List Word
  units : Nat
  /-- The model's number of the packet. -/
  num : Nat
  /-- The cycle of its cluster's cores at which it reached the head (R27, R76). -/
  since : Nat
  /-- The number of a reservation not yet committed (R353). -/
  reserved : Option Nat
  deriving DecidableEq, Repr

/-- A reservation of ENQ or SPAWN (R353): its queue and length, the enqueuing launch, and in the spill ring its
place as a value of WR. -/
structure Reservation where
  cluster : Nat
  tq : Nat
  units : Nat
  launch : Nat
  ring : Option Nat
  deriving DecidableEq, Repr

/-- The state of one 128-byte block of scratchpad beside its bytes: presence, poison mark, scale sideband
(R127), the unit that appended it (R238) and its timestamps (R192). -/
structure Block where
  present : Bool
  mark : Bool
  /-- 32 f32 values, value 0 lowest. -/
  sideband : Nat
  /-- 0 scalar or engine, 1 V or U slot, 2 M slot. -/
  unit : Nat
  wts : Nat
  rts : Nat
  deriving DecidableEq, Repr

/-- A block at reset: R146 clears the bytes and the presence bits; the mark, the unit, the times and the sideband, of which the spec says
nothing, are zero too. DESIGN CHOICE (log 3). -/
def Block.reset : Block := { present := false, mark := false, sideband := 0, unit := 0, wts := 0, rts := 0 }

/-- A copy of a 64-byte line in the cluster's L1 (R148, R193): the way's bank, the data and the
timestamps as of the fill or renewal. -/
structure L1Line where
  bank : Nat
  data : Nat
  wts : Nat
  rts : Nat
  deriving DecidableEq, Repr

/-- A cluster (R15, R146). -/
structure Cluster where
  spad : Memory
  blocks : Map Block
  banks : Vector Bank 32
  rings : Map Ring
  /-- The hardware queues tq0 to tq15, oldest packet first (R70, R103). -/
  tqs : Map (List Packet)
  /-- L1 copies by line number PA / 64. -/
  l1 : Map L1Line
  deriving DecidableEq, Repr

/-- A cluster at reset. -/
def Cluster.reset : Cluster :=
  { spad := [], blocks := [], banks := Vector.replicate 32 Bank.reset, rings := [], tqs := [], l1 := [] }

/-! ## The device -/

/-- A level entry of a launch record (R42). -/
structure Level where
  kind : Nat
  mscope : Nat
  first : Nat
  count : Nat
  deriving DecidableEq, Repr

/-- A program-table entry (R42). -/
structure Program where
  va : Nat
  firstCore : Nat
  coreCount : Nat
  firstBundle : Nat
  bundles : Nat
  deriving DecidableEq, Repr

/-- A loop-nest record (R42). -/
structure Nest where
  ndim : Nat
  tlevel : Nat
  entry : Nat
  order : Nat
  arg : Nat
  bounds : List Nat
  steps : List Nat
  deriving DecidableEq, Repr

/-- A start-vector entry (R42). -/
structure StartVector where
  core : Nat
  entry : Nat
  arg : Nat
  deriving DecidableEq, Repr

/-- An admitted launch: its record (R41), its tables (R42), and the progress of its walkers and tasks. -/
structure Launch where
  addr : Nat
  /-- Its launch slot. -/
  slot : Nat
  redundant : Bool
  leasetol : Bool
  checked : Bool
  prio : Nat
  notifyQ : Nat
  notifyCl : Nat
  pbound : BitVec 32
  accq : BitVec 16
  resbase : Nat
  ctxarea : Nat
  levels : List Level
  /-- The lowest core of its domain at admission (R45). DESIGN CHOICE (log 86). -/
  c0 : Nat
  programs : List Program
  startVectors : List StartVector
  nests : List Nest
  /-- Program-table entries still to be loaded, as (entry, core) (R47). -/
  toLoad : List (Nat × Nat)
  /-- The start vectors not yet offered, by index (R63). -/
  toOffer : List Nat
  /-- The walker (R64): current record, next iteration in enumeration order, cursor core. -/
  record : Nat
  iteration : Nat
  cursor : Nat
  /-- The context slots in use, as (core, slot) (R53). -/
  ctxUsed : List (Nat × Nat)
  /-- Tasks retired as failed (R277) and the launch's fault (R73). -/
  failures : Nat
  faulted : Bool
  /-- The core cycle of each island at its admission (R27, R76). -/
  since : List Nat
  /-- Pre-empted by the host, or terminating (R280). -/
  preempted : Bool
  terminated : Bool
  deriving DecidableEq, Repr

/-- A barrier record (R328): its launch slot and ID at the barrier unit of its HOME cluster; of the current round the
members arrived, as core and berth with the number of each arrival; GEN and PHASE. -/
structure Barrier where
  home : Nat
  slot : Nat
  ident : Nat
  arrived : List (Nat × Nat × Nat)
  count : Nat
  usesBanks : Bool
  bankA : Nat
  bankB : Nat
  swap : Bool
  gen : Nat
  phase : Nat
  deriving DecidableEq, Repr

/-- An accumulate on its way (R201 to R208). -/
structure Addend where
  /-- The sender and its launch slot, and the command of a normal one. -/
  core : Nat
  berth : Nat
  slot : Nat
  cmd : Option Nat
  /-- The address of the line, 32 a64 values, lane 0 lowest, and the lanes marked, as bits. -/
  line : Nat
  addends : Nat
  marks : Nat
  forced : Bool
  /-- The residual entry that rides or is forced. -/
  entry : Option Nat
  /-- QUOTA as the command carries it, and the sender's clock. -/
  quota : Nat
  pts : Nat
  /-- The slice has decided, accepted, applied; the reply has arrived. -/
  decided : Bool
  accepted : Bool
  applied : Bool
  replied : Bool
  /-- The number of its packet, and the packet's mark (R226, R227). -/
  sent : Nat
  mark : Bool
  /-- It waits at its source, for its line's home moves (R217). -/
  kept : Bool
  deriving DecidableEq, Repr

/-- Who notifies successors: the core whose completion engine acts, the launch slot and the berth as events name them, 0x80 for a
task that no berth holds (R276), and the clock that the fence of R73 leaves. -/
structure Notifier where
  core : Nat
  slot : Nat
  berth : Nat
  pts : Nat
  deriving DecidableEq, Repr

/-- A message on its way. -/
inductive Msg where
  /-- ENQ's reservation (R353): the asking berth and slot, the target and the packet's units. -/
  | enq (core berth slot cluster tq units launch : Nat)
  /-- QSPL's request and its reply (R96). -/
  | qspl (core berth slot queue : Nat) (target : Word)
  | qsplReply (core berth slot queue reason : Nat) (target cfg : Word) (tail head : BitVec 16) (request : Nat)
  /-- A reservation notice and the data of a spliced entry, to a consumer's queue (R98, R99). -/
  | notice (core berth queue : Nat)
  | data (core berth queue counter bytes sideband unit : Nat)
  /-- A head counter, to a producer's queue (R98). -/
  | head (core berth queue : Nat) (head : BitVec 16)
  /-- QUSP (R100): the consumer's queue, and the producer's. -/
  | unsplice (core berth queue : Nat) (pCore pBerth pQueue : Nat)
  /-- A packet of XST data (R229): the command, the receiving cluster, the phase tag, the packet's place in the data, its
  size and bytes, and whether the early buffer holds it. -/
  | xst (cmd cluster tag first size bytes : Nat) (early : Bool)
  /-- BAR's arrival (R328): the berth, its launch slot and the group word. -/
  | bar (core berth slot : Nat) (word : Word) (swap : Bool)
  /-- A completion to a member's cluster (R328): the slot, ID and PHASE, and the members there. -/
  | barDone (cluster slot ident phase : Nat) (members : List (Nat × Nat × Nat))
  /-- A contribution of COLL (R338), by its command. -/
  | coll (cmd : Nat)
  /-- An accumulate, to the home slice of its line (R201). -/
  | acc (a : Addend)
  deriving DecidableEq, Repr

/-- A contribution that a collective engine keeps (R338). -/
structure Contribution where
  slot : Nat
  cmd : Nat
  job : CollJob
  deriving DecidableEq, Repr

/-- A migration in progress (R167): the page, its size, its new frame, and the parked writes, oldest first. -/
structure Migration where
  va : Nat
  frame : Nat
  /-- MIG is set: no engine was within a granule of the page. -/
  started : Bool
  parked : List (Nat × Nat × Nat)
  deriving DecidableEq, Repr

/-- An island (R27, R283, R284): its grant and request, intervals capped in succession, the second of its last
POWER_CAPPED event, and the factor by which temperature limits it (1, or the divisor 2 or 4). -/
structure Island where
  grant : Nat
  request : Nat
  capped : Nat
  posted : Option Nat
  heat : Nat
  deriving DecidableEq, Repr

/-- An island at reset. -/
def Island.reset : Island := { grant := 1, request := 1, capped := 0, posted := none, heat := 1 }

/-- The window of a source for a slice (R227). -/
structure Window where
  w : Nat
  unmarked : Nat
  halved : Nat
  /-- The requests outstanding. -/
  out : Nat
  deriving DecidableEq, Repr

/-- An event, before its stamp (R276). -/
structure Event where
  code : Nat
  lslot : Nat
  berth : Nat
  core : Nat
  arg0 : Nat
  arg1 : Nat
  /-- What an answer concerns: the core, berth and engine command of a page fault (R164, R165). -/
  command : Option Nat
  deriving DecidableEq, Repr

/-- A page fault that awaits its answer (R164, R165). -/
structure PageFault where
  seq : Nat
  core : Nat
  berth : Nat
  command : Option Nat
  va : Nat
  deriving DecidableEq, Repr

/-- The states of a lease (R255), by their codes in SR.LEASE (R307): 1 REQUESTED to 7 RETIRED. -/
structure Lease where
  kind : Nat
  index : Nat
  state : Nat
  /-- The score at which it was requested (R255), and the device cycle. -/
  score : Nat
  since : Nat
  /-- The device cycle of the unit's last docking (R254). -/
  docked : Nat
  deriving DecidableEq, Repr

/-- A retirement record (R258). -/
structure Record where
  kind : Nat
  cause : Nat
  index : Nat
  seq : Nat
  seconds : Nat
  pattern : Nat
  score : Nat
  band : Nat
  spare : Nat
  capgen : Nat
  offset : Nat
  diff : Nat
  deriving DecidableEq, Repr

/-- A CORE access in flight (R189): LD, ST or ATOM, with what its reply writes. -/
structure Access where
  core : Nat
  berth : Nat
  slot : Nat
  /-- The launch slot of its task. -/
  launch : Nat
  /-- 0 LD, 1 ST, 2 ATOM. -/
  kind : Nat
  fn : Nat
  handle : Nat
  pa : Nat
  size : Nat
  data : Nat
  cmp : Nat
  signed : Bool
  dest : Nat
  sc : Bool
  scope : Nat
  ticket : Option Nat
  ms : Bool
  /-- Performed, with the value it returns, and whether that value carries a poison mark. -/
  done : Bool
  value : Nat
  marked : Bool
  flags : BitVec 7
  resends : Nat
  /-- The number of its request's packet, for its window, and the request's mark bit (R226, R227); whether a request left
  the cluster at all: a read that L1 serves sends none (R193). -/
  sent : Nat
  mark : Bool
  remote : Bool
  deriving DecidableEq, Repr

/-- A walk in progress for XLAT (R159): the berth, the handle register and the virtual address. -/
structure PendingWalk where
  core : Nat
  berth : Nat
  handle : Nat
  va : Nat
  deriving DecidableEq, Repr

/-- No bundle has issued. DESIGN CHOICE (log 1). -/
def Issue.reset : Issue :=
  { core := 0, berth := 0, slot := 2, hdr := Header.read 0, start := Regs.reset, sup := false,
    z := Vector.replicate 32 0, d := [], spad := [], ya := 0, yb := 0, yc := 0, vsel := 0, inA := 0, inB := 0, chainFlags := 0, taken := false }

/-- Why the model stops without a meaning. -/
inductive Refusal where
  /-- Raised by Dispatch for an instruction without a meaning yet; safe. -/
  | notModelled (mnemonic : String)
  deriving DecidableEq, Repr

/-- Why the machine stops. -/
inductive Fault where
  /-- Raised by Step when power to the package has been cut at 120 °C (R284), until the device is reset;
  safe. -/
  | poweredOff
  deriving DecidableEq, Repr

/-- The CTRL registers with storage of their own (R279). -/
structure Ctrl where
  ready : Bool
  measured : Bool
  fwerr : Bool
  /-- EVQBASE has been written since reset (R275). -/
  evqset : Bool
  evqbase : Word
  evqlog2 : Word
  evqwr : Word
  evqrd : Word
  evqdrops : Word
  evqirq : Word
  xroot : Word
  spilltab : Word
  poisonmap : Word
  alloctab : Word
  pkgnum : Word
  dockhrs : Word
  /-- The address of the host's last revocation (R280). -/
  revoking : Option Nat
  apbase : Word
  pcap : Word
  mbox : Memory
  deriving DecidableEq, Repr

/-- The CTRL registers at reset (R279). -/
def Ctrl.reset : Ctrl :=
  { ready := false, measured := false, fwerr := false, evqset := false, evqbase := 0, evqlog2 := 0, evqwr := 0, evqrd := 0,
    evqdrops := 0, evqirq := 0, xroot := 0, spilltab := 0, poisonmap := 0, alloctab := 0, pkgnum := 0,
    dockhrs := 24, revoking := none, apbase := 0, pcap := 3400, mbox := [] }

/-- The state of the device. -/
structure State where
  cores : Map Core
  clusters : Map Cluster
  /-- Local DRAM, host memory and the pod windows, by physical address (R154). -/
  mem : Memory
  ctrl : Ctrl
  fifo : List Word
  launches : Map Launch
  barriers : List Barrier
  /-- PHASE as each cluster has recorded it (R328), by (cluster · 16 + slot) · 16 + ID. -/
  phases : Map Nat
  /-- Contributions of COLL, in order of arrival (R338). -/
  contributions : List Contribution
  /-- Reservations of task-queue places (R353). -/
  reservations : Map Reservation
  /-- Events raised and not yet accepted, and accepted ones that wait for the ring (R274, R275). -/
  raised : List Event
  stamped : List (Nat × Event)
  seq : Nat
  /-- A completion message may be raised (R277); how many have been. -/
  evqArmed : Bool
  evqMessages : Nat
  /-- The DEVICE_READY event is still to be posted (R285). -/
  readyDue : Bool
  faults : List PageFault
  accesses : Map Access
  commands : Map Command
  messages : Map Msg
  writebacks : Map Writeback
  walks : List PendingWalk
  migrations : List Migration
  /-- Writes of other packages refused by a full migration buffer (R167): address, size, data. -/
  refusedWrites : Map (Nat × Nat × Nat)
  /-- The accumulates that wait at each slice, in order of arrival: forced ones, and normal ones accepted behind them (R207); those
for lines of other packages at number 96. -/
  forced : Map (List Nat)
  /-- Normal accumulates accepted by (sender, slice, window) (R201). -/
  accepted : Map Nat
  /-- The next tickets of the global and of the pod sequencer (R198). -/
  tickets : Nat × Nat
  /-- SR.SUSP KIND and INDEX (R253). -/
  susp : Nat × Nat
  leases : List Lease
  records : List Record
  capgen : BitVec 32
  /-- Memory bands that the host is to vacate, as (band, channel) (R259). -/
  bandsDue : List (Nat × Nat)
  scores : Map Nat
  /-- The nonvolatile copy of the scores (R252). -/
  savedScores : Map Nat
  seconds : Nat
  /-- The remap table (R217); an absent entry maps to itself. Pin counts by line (R152), slice floors (R218). -/
  remap : Map Nat
  pins : Map Nat
  floors : Map Nat
  /-- Network counters by 256 · quay + index (R236), and windows by 128 · source + slice (R227). -/
  counters : Map Nat
  windows : Map Window
  /-- Packets carried so far, and the requests that wait for their window, as its key and the row that sends them (R227). -/
  packets : Nat
  windowQueue : List (Nat × Instr)
  /-- Requests of which a packet was dropped, by the number of the access, message or command: the device cycle of it, from which
the source's timer runs (R234). -/
  sentAt : Map Nat
  islands : Map Island
  /-- The spare channel that serves in place of a channel (R256). -/
  spares : Map Nat
  /-- The lines that L2 holds, by line number, with their timestamps wts and rts (R22, R192), and the clusters recorded for
  each as possible holders of a copy (R149). -/
  lines : Map (Nat × Nat)
  sharers : Map (List Nat)
  /-- Of each line that L2 holds, the 64-byte sectors present (bits [3:0]) and dirty (bits [7:4]) (R151). -/
  sectors : Map Nat
  /-- Timestamps of lines that no slice holds: of MS pages, at the memory-side atomic unit, and of other packages (R192,
  R232). -/
  uncached : Map (Nat × Nat)
  /-- Corrected errors counted, by kind and index as scores are (R251). -/
  corrected : Map Nat
  /-- Overflow bits of a64 lines written since power-on (R138), by line number. -/
  ovf : Map Bool
  /-- Granules of other packages' memory to which marked data went: the poison that those packages hold (R163), by PA / 4,096. -/
  farPoison : Map Bool
  /-- The answer to the host's last read of a window (R278, R279). -/
  hostReply : Word
  /-- Resends of a message or command, by its number (R234). -/
  resends : Map Nat
  /-- The rows of agents that stall while an event of theirs waits to be accepted (R274). -/
  stalledRows : List Instr
  /-- The messages whose request arrived marked (R226). -/
  marked : List Nat
  /-- The successors of lost tasks that are still to be notified, in order (R73, R82). -/
  toNotify : List (Notifier × Word)
  iss : Issue
  /-- The rows of the opcode table that are due, first first. -/
  agenda : List Instr
  /-- The core whose cycle comes next when the agenda is empty, and the cycles since reset. -/
  turn : Nat
  now : Nat
  /-- A counter of identifiers and free values. -/
  stamp : Nat
  off : Bool
  deriving DecidableEq, Repr

/-- The device right after reset. DESIGN CHOICE (log 4). -/
def State.reset : State :=
  { cores := [], clusters := [], mem := [], ctrl := Ctrl.reset, fifo := [], launches := [], barriers := [],
    phases := [], contributions := [], reservations := [], raised := [], stamped := [], seq := 0, evqArmed := true,
    evqMessages := 0, readyDue := false, faults := [], accesses := [], commands := [], messages := [],
    writebacks := [], walks := [], migrations := [], refusedWrites := [], forced := [], accepted := [],
    tickets := (0, 0), susp := (0, 0), leases := [], records := [], capgen := 0, bandsDue := [], scores := [], savedScores := [],
    seconds := 0, remap := [], pins := [], floors := [], counters := [], windows := [], packets := 0,
    windowQueue := [], sentAt := [], islands := [], spares := [],
    lines := [], sharers := [], sectors := [], uncached := [], corrected := [], ovf := [], farPoison := [], hostReply := 0, resends := [], stalledRows := [], marked := [], toNotify := [], iss := Issue.reset, agenda := [], turn := 0, now := 0, stamp := 0,
    off := false }

end Sys2Proof.Machine
end

