-- ==== Sys2Proof/Machine/Network.lean ====
section
/-! DEFINITION. The units of the package (R252), where an address is homed (R154, R216, R219), and the network: quays,
routes, classes and sizes of packets, counters, marks and windows (R18, R23, R214 to R227, R232 to R236). -/

namespace Sys2Proof.Machine

/-! ## Clusters, dies, stacks (R14, R16, R18, R23) -/

/-- The cluster of a core (R16): sixteen cores each. -/
def clusterOf (core : Nat) : Nat := core / 16

/-- The die of a cluster or quay (R14): quay 12y + x lies on die (x div 6) + 2 (y div 4). -/
def dieOf (cluster : Nat) : Nat := cluster % 12 / 6 + 2 * (cluster / 12 / 4)

/-- The eight quays at which the I/O die attaches (R18), ascending. -/
def attachedQuays : List Nat := [29, 30, 41, 42, 53, 54, 65, 66]

/-- The stack of a quay's memory port, its Stevedore (R23). -/
def stackOfQuay (q : Nat) : Nat := 3 * dieOf q + q % 12 % 6 / 2

/-- The quays of the eight Stevedores of a stack, ascending (R23). -/
def stackQuays (stack : Nat) : List Nat := (List.range 96).filter fun q => stackOfQuay q == stack

/-- The stack in which a local physical address lies (R219). -/
def stackOfAddr (pa : Nat) : Nat := pa / 4096 % 12

/-! ## Units (R252, R254, R258) -/

/-- The number of units of a kind (R252). -/
def unitCount (kind : Nat) : Nat :=
  match kind with
  | 0 => 1536
  | 1 => 1536
  | 2 => 1536
  | 3 => 192
  | 4 => 96
  | 5 => 1584
  | 6 => 36
  | _ => 0

/-- Two kinds and indices name one unit: a core has three sub-units (R252, R255). -/
def sameUnit (k i k' i' : Nat) : Bool := i == i' && (k == k' || (decide (k ≤ 2) && decide (k' ≤ 2)))

/-- The lease of a unit, current or last. -/
def State.leaseOf (s : State) (kind index : Nat) : Option Lease :=
  s.leases.find? fun l => sameUnit l.kind l.index kind index

/-- A unit that a retirement record names (R258). -/
def State.isRetired (s : State) (kind index : Nat) : Bool :=
  s.records.any fun r => sameUnit r.kind r.index kind index

/-- A lease in REQUESTED, TESTING or VERDICT (R255). -/
def Lease.active (l : Lease) : Bool := 1 ≤ l.state && l.state ≤ 3

def State.leased (s : State) (kind index : Nat) : Bool := ((s.leaseOf kind index).map Lease.active).getD false

/-- A unit in service and under no lease. -/
def State.inService (s : State) (kind index : Nat) : Bool := !s.isRetired kind index && !s.leased kind index

/-- The ring of a link: x rings by row, y rings by column (R224, R252). -/
def ringOf (link : Nat) : Nat × Nat := if link % 2 = 0 then (0, link / 2 / 12) else (1, link / 2 % 12)

/-- The links of a ring. -/
def ringLinks (r : Nat × Nat) : List Nat := (List.range 192).filter fun i => ringOf i == r

/-! ## Physical addresses and homes (R154, R216, R217) -/

/-- The targets of the physical map (R154). -/
inductive PhysTarget where
  | dram
  | host
  | pod (package : Nat)
  | reserved
  deriving DecidableEq, Repr

/-- The target of a physical address (R154); the window of the package itself counts as reserved. DESIGN CHOICE (log 75). -/
def State.target (s : State) (pa : Nat) : PhysTarget :=
  if pa < 0xC000000000 then .dram
  else if pa < 2 ^ 48 then .reserved
  else if pa < 2 ^ 49 then .host
  else if pa < 2 ^ 51 then .reserved
  else
    let p := (pa - 2 ^ 51) / 2 ^ 40
    if p < 288 ∧ pa % 2 ^ 40 < 0xC000000000 ∧ p ≠ bits s.ctrl.pkgnum.toNat 0 9 then .pod p
    else .reserved

/-- The home index of a line number (R216). -/
def homeIndex (n : Nat) : Nat :=
  32 * (n % 3) +
    (bits n 0 5 ^^^ bits n 5 5 ^^^ bits n 10 5 ^^^ bits n 15 5 ^^^ bits n 20 5 ^^^ bits n 25 5 ^^^ bits n 30 5
      ^^^ bits n 35 5 ^^^ bits n 40 4)

/-- The home slice of a local physical address (R216, R217). -/
def State.homeSlice (s : State) (pa : Nat) : Nat :=
  let h := homeIndex (pa / 256)
  Map.getD s.remap h h

/-- Whether a line is homed on a slice of this package: not one of host memory or of another package (R216). -/
def State.homedAt (s : State) (pa slice : Nat) : Bool := s.target pa == .dram && s.homeSlice pa == slice

/-- The slice that is to serve a home index: the first in the +x direction that is neither under a lease nor retired
(R217, R256). Where no slice of the row is in service it is the index's own. DESIGN CHOICE (log 91). -/
def State.servingSlice (s : State) (h : Nat) : Nat :=
  (((List.range 12).map fun k => h / 12 * 12 + (h + k) % 12).find? fun i => s.inService 4 i).getD h

/-- A line whose home is about to move: no new request for it is sent (step 2 of R217). -/
def State.moving (s : State) (pa : Nat) : Bool :=
  s.target pa == .dram && s.servingSlice (homeIndex (pa / 256)) != s.homeSlice pa

/-! ## Routes (R214, R221, R222, R224) -/

/-- The shorter way from a to b on a ring of n is the + direction: of two equal ways it is so from an even coordinate
(R221). -/
def plusWay (n a b : Nat) : Bool :=
  let d := (b + n - a) % n
  if 2 * d = n then a % 2 == 0 else decide (2 * d < n)

/-- Hops from a to b on a ring of n, in the + direction or the other. -/
def ringHops (n : Nat) (plus : Bool) (a b : Nat) : Nat := if plus then (b + n - a) % n else (a + n - b) % n

/-- The hops between two quays by the shorter directions. -/
def quayHops (a b : Nat) : Nat :=
  ringHops 12 (plusWay 12 (a % 12) (b % 12)) (a % 12) (b % 12) + ringHops 8 (plusWay 8 (a / 12) (b / 12)) (a / 12) (b / 12)

/-- The quay of a list in ascending order that is fewest hops away, ties going to the lower number (R219, R221). -/
def nearestOf (l : List Nat) (q : Nat) : Nat :=
  (l.find? fun i => l.all fun j => decide (quayHops q i ≤ quayHops q j)).getD q

/-- The attached quay of a packet between a quay and the I/O die (R221, R232). -/
def attachedQuay (q : Nat) : Nat := nearestOf attachedQuays q

/-- The quay of the Stevedore through which a slice reaches the stack of an address (R219). -/
def stevedoreQuay (slice pa : Nat) : Nat := nearestOf (stackQuays (stackOfAddr pa)) slice

/-- The neighbour of a quay on an output: 0 +x, 1 −x, 2 +y, 3 −y (R214, R236). -/
def nextQuay (q dir : Nat) : Nat :=
  match dir with
  | 0 => q / 12 * 12 + (q % 12 + 1) % 12
  | 1 => q / 12 * 12 + (q % 12 + 11) % 12
  | 2 => (q / 12 + 1) % 8 * 12 + q % 12
  | _ => (q / 12 + 7) % 8 * 12 + q % 12

/-- The link of an output: link 2q joins quay q to +x, link 2q + 1 to +y (R252). -/
def outLink (q dir : Nat) : Nat :=
  match dir with
  | 0 => 2 * q
  | 1 => 2 * nextQuay q 1
  | 2 => 2 * q + 1
  | _ => 2 * nextQuay q 3 + 1

/-- The quay that the + direction of a link enters (R252). -/
def linkTarget (link : Nat) : Nat := nextQuay (link / 2) (if link % 2 = 0 then 0 else 2)

/-- The outputs of n hops in one direction, as quay and direction. -/
def hopsAlong (dir : Nat) : Nat → Nat → List (Nat × Nat)
  | 0, _ => []
  | n + 1, q => (q, dir) :: hopsAlong dir n (nextQuay q dir)

/-- A path crosses a link that is out of service (R224). -/
def State.crosses (s : State) (l : List (Nat × Nat)) : Bool := l.any fun o => !s.inService 3 (outLink o.1 o.2)

/-- The direction of a packet on the x ring (0) or y ring (1) of a quay: the shorter one, or the other where the shorter
crosses a link out of service and the other does not; and the hops (R221, R224). -/
def State.ringWay (s : State) (ring q to_ : Nat) : Nat × Nat :=
  let n := if ring = 0 then 12 else 8
  let a := if ring = 0 then q % 12 else q / 12
  let way (plus : Bool) : Nat × Nat := (2 * ring + if plus then 0 else 1, ringHops n plus a to_)
  let out (w : Nat × Nat) : Bool := s.crosses (hopsAlong w.1 w.2 q)
  let short := way (plusWay n a to_)
  let long := way (!plusWay n a to_)
  if out short && !out long then long else short

/-- A packet between two quays takes the detour lane, y before x: its path along a cut x ring would cross a cut (R224). -/
def State.detours (s : State) (a b : Nat) : Bool :=
  let w := s.ringWay 0 a (b % 12)
  s.crosses (hopsAlong w.1 w.2 a)

/-- The outputs that a REQ, RSP or ACC packet takes from one quay to another, x before y, and y before x in the
detour lane of a cut x ring (R221, R224). -/
def State.route (s : State) (a b : Nat) : List (Nat × Nat) :=
  if s.detours a b then
    let y := s.ringWay 1 a (b / 12)
    let q := b / 12 * 12 + a % 12
    let x := s.ringWay 0 q (b % 12)
    hopsAlong y.1 y.2 a ++ hopsAlong x.1 x.2 q
  else
    let x := s.ringWay 0 a (b % 12)
    let q := a / 12 * 12 + b % 12
    let y := s.ringWay 1 q (b / 12)
    hopsAlong x.1 x.2 a ++ hopsAlong y.1 y.2 q

/-- Some way with hops left in x and y crosses no link that is out of service (R224). -/
def State.bulkClear (s : State) (dx dy : Nat) : Nat → Nat → Nat → Nat → Bool
  | 0, _, _, _ => true
  | fuel + 1, q, x, y =>
    (x == 0 && y == 0) ||
      (x != 0 && s.inService 3 (outLink q dx) && s.bulkClear dx dy fuel (nextQuay q dx) (x - 1) y) ||
      (y != 0 && s.inService 3 (outLink q dy) && s.bulkClear dx dy fuel (nextQuay q dy) x (y - 1))

/-- The outputs of a BULK packet with hops left in x and y: at each router either, as its free buffers decide (R222), among those
from which a way goes on over links in service (R224). The fill of the buffers is a free value. DESIGN CHOICE (log 77). -/
def State.bulkHops (s : State) (packet dx dy : Nat) : Nat → Nat → Nat → Nat → List (Nat × Nat)
  | 0, _, _, _ => []
  | _ + 1, _, 0, 0 => []
  | fuel + 1, q, 0, y + 1 => (q, dy) :: s.bulkHops packet dx dy fuel (nextQuay q dy) 0 y
  | fuel + 1, q, x + 1, 0 => (q, dx) :: s.bulkHops packet dx dy fuel (nextQuay q dx) x 0
  | fuel + 1, q, x + 1, y + 1 =>
    let yFirst := s.inService 3 (outLink q dy) && s.bulkClear dx dy fuel (nextQuay q dy) (x + 1) y
    let xFirst := s.inService 3 (outLink q dx) && s.bulkClear dx dy fuel (nextQuay q dx) x (y + 1)
    if yFirst && (Config.freerInY packet q || !xFirst) then (q, dy) :: s.bulkHops packet dx dy fuel (nextQuay q dy) (x + 1) y
    else (q, dx) :: s.bulkHops packet dx dy fuel (nextQuay q dx) x (y + 1)

/-- The outputs of a BULK packet, its directions fixed at injection (R222); where each of its ways crosses a link out of service, and
in the detour lane, those of R224 in its order. -/
def State.bulkRoute (s : State) (packet a b : Nat) : List (Nat × Nat) :=
  let x := s.ringWay 0 a (b % 12)
  let y := s.ringWay 1 a (b / 12)
  if s.detours a b || !s.bulkClear x.1 y.1 (x.2 + y.2) a x.2 y.2 then s.route a b
  else s.bulkHops packet x.1 y.1 (x.2 + y.2) a x.2 y.2

/-! ## Packets (R215, R220) -/

/-- The classes of packets, in the order of their codes in a TRANSPORT_LOST event (R220, R277). -/
inductive PacketClass where
  | req
  | rsp
  | bulk
  | acc
  deriving DecidableEq, Repr

def PacketClass.code (c : PacketClass) : Nat :=
  match c with
  | .req => 0
  | .rsp => 1
  | .bulk => 2
  | .acc => 3

/-- An end of a packet's way: a quay, or the I/O die. -/
inductive NetEnd where
  | quay (q : Nat)
  | ioDie
  deriving DecidableEq, Repr

/-- A kind of packet by its class, its flits, and whether routers may mark it: a request that is no forced addend
(R215, R226). -/
structure PacketKind where
  cls : PacketClass
  flits : Nat
  markable : Bool
  deriving DecidableEq, Repr

/-- The packets of R215. Of BULK data of n bytes the flits are the header and one for each 64 bytes begun. DESIGN CHOICE
(log 91). Events and the offers of the launch unit, which R215 does not list, are of one flit. DESIGN CHOICE (log 77). -/
def pkRequest : PacketKind := { cls := .req, flits := 1, markable := true }
def pkWrite (sectors : Nat) : PacketKind := { cls := .req, flits := 1 + sectors, markable := true }
def pkAnswer : PacketKind := { cls := .rsp, flits := 1, markable := false }
def pkSector : PacketKind := { cls := .rsp, flits := 2, markable := false }
def pkLine : PacketKind := { cls := .rsp, flits := 5, markable := false }
def pkData (bytes : Nat) : PacketKind := { cls := .bulk, flits := 1 + (bytes + 63) / 64, markable := true }
def pkUnit : PacketKind := { cls := .req, flits := 1, markable := false }
def pkAcc (forced : Bool) : PacketKind := { cls := .acc, flits := 5, markable := !forced }

/-- The sizes of the packets of up to 256 bytes that carry n bytes of BULK data (R215). -/
def dataPackets (n : Nat) : List Nat := (List.range ((n + 255) / 256)).map fun i => min 256 (n - 256 * i)

/-- A counter of a quay advanced by n (R236). -/
def addCount (m : Map Nat) (quay i n : Nat) : Map Nat :=
  Map.set m (256 * quay + i) ((Map.getD m (256 * quay + i) 0 + n) % 2 ^ 64)

def State.count (s : State) (quay i : Nat) : State := { s with counters := addCount s.counters quay i 1 }

/-- The quays between which a packet travels on the torus (R18, R221, R232). A packet from the I/O die enters at the attached quay
nearest to its destination, as R232 has it of accesses of other packages. DESIGN CHOICE (log 91). -/
def netQuays (a b : NetEnd) : Nat × Nat :=
  match a, b with
  | .quay x, .quay y => (x, y)
  | .quay x, .ioDie => (x, attachedQuay x)
  | .ioDie, .quay y => (attachedQuay y, y)
  | .ioDie, .ioDie => (29, 29)

/-- The outputs that a packet takes. -/
def State.outputs (s : State) (k : PacketKind) (a b : NetEnd) : List (Nat × Nat) :=
  let e := netQuays a b
  if k.cls = .bulk then s.bulkRoute s.packets e.1 e.2 else s.route e.1 e.2

/-- The routers that mark a request on its way: those whose output has a full queue in its class, a free value (R226).
DESIGN CHOICE (log 77). -/
def State.markers (s : State) (k : PacketKind) (l : List (Nat × Nat)) : List Nat :=
  if k.markable then (l.map Prod.fst).filter fun q => Config.queueFull s.packets q else []

/-- The counters after a packet has travelled: flits at each output, its marks, and its entry from the I/O die (R236). -/
def State.packetCounts (s : State) (k : PacketKind) (a b : NetEnd) : Map Nat :=
  let l := s.outputs k a b
  let m := l.foldl (fun m o => addCount m o.1 o.2 k.flits) s.counters
  let m := (s.markers k l).foldl (fun m q => addCount m q 5 1) m
  if a = .ioDie then addCount m (netQuays a b).1 0xD 1 else m

/-- A packet carried (R215, R221, R222, R226, R236). DEDUCED (log 15). -/
def State.carry (s : State) (k : PacketKind) (a b : NetEnd) : State :=
  { s with counters := s.packetCounts k a b, packets := s.packets + 1 }

/-- The mark bit that the next packet arrives with (R226). -/
def State.markBit (s : State) (k : PacketKind) (a b : NetEnd) : Bool := !(s.markers k (s.outputs k a b)).isEmpty

/-- A reply of one flit carried, which brings a request's mark back to the quay of its source (R215, R226, R236). -/
def State.carryReply (s : State) (marked : Bool) (a b : Nat) : State :=
  let s := s.carry pkAnswer (.quay a) (.quay b)
  if marked then s.count b 6 else s

/-- Packets of BULK data carried. -/
def State.carryData (s : State) (n : Nat) (a b : NetEnd) : State :=
  (dataPackets n).foldl (fun (s : State) k => s.carry (pkData k) a b) s

/-! ## Windows (R227) -/

/-- The sources of requests: the network interface of a core, a Stevedore, an I/O-die port. -/
def coreSource (c : Nat) : Nat := c
def stevedoreSource (q : Nat) : Nat := 1536 + q
def portSource (q : Nat) : Nat := 1632 + q

/-- The quay of a source. -/
def sourceQuay (i : Nat) : Nat := if i < 1536 then clusterOf i else if i < 1632 then i - 1536 else i - 1632

/-- A window at device reset (R227). -/
def Window.reset : Window := { w := 32, unmarked := 0, halved := 0, out := 0 }

def State.window (s : State) (source slice : Nat) : Window := Map.getD s.windows (128 * source + slice) Window.reset

/-- The window after a reply (R227): whether it was marked, and when its request was sent. -/
def Window.reply (w : Window) (marked : Bool) (sent now : Nat) : Window :=
  let late : Bool := decide (w.halved ≤ sent)
  let full : Bool := decide (w.w ≤ w.unmarked + 1)
  { w := if marked then (if late then max 1 (w.w / 2) else w.w) else if full then min 64 (w.w + 1) else w.w
    unmarked := if marked || full then 0 else w.unmarked + 1
    halved := if marked && late then now else w.halved
    out := w.out - 1 }

/-- A source may send one more request to a slice. -/
def State.windowOpen (s : State) (source slice : Nat) : Bool :=
  let w := s.window source slice
  w.out == 0 || decide (w.out < w.w)

/-- A request that the source sends is outstanding. -/
def State.windowSend (s : State) (source slice : Nat) : State :=
  let w := s.window source slice
  { s with windows := Map.set s.windows (128 * source + slice) { w with out := w.out + 1 } }

/-- A request that will have no reply, or is sent anew, is outstanding no more. -/
def State.windowForget (s : State) (source slice : Nat) : State :=
  let w := s.window source slice
  { s with windows := Map.set s.windows (128 * source + slice) { w with out := w.out - 1 } }

/-- A request that would exceed its window waits at its source, as the row that sends it. -/
def State.windowWait (s : State) (source slice : Nat) (i : Instr) : State :=
  if s.windowQueue.any fun x => x.2 == i then s else { s with windowQueue := s.windowQueue ++ [(128 * source + slice, i)] }

/-- A reply counts for its source's window and, marked, for its quay; requests that waited for the window go on (R227, R236).
DESIGN CHOICE (log 51). -/
def State.windowReply (s : State) (source slice sent : Nat) (marked : Bool) : State :=
  let k := 128 * source + slice
  let go := s.windowQueue.filter fun x => x.1 == k
  { s with
    windows := Map.set s.windows k ((s.window source slice).reply marked sent s.packets)
    counters := if marked then addCount s.counters (sourceQuay source) 6 1 else s.counters
    windowQueue := s.windowQueue.filter fun (x : Nat × Instr) => x.1 != k
    agenda := s.agenda ++ go.map Prod.snd }

/-- A request of a source at an end to a slice and its reply, performed at once (R215, R226, R227). -/
def State.sliceTrip (s : State) (source : Nat) (a : NetEnd) (slice : Nat) (k reply : PacketKind) : State :=
  let marked := s.markBit k a (.quay slice)
  let sent := s.packets
  (((s.windowSend source slice).carry k a (.quay slice)).carry reply (.quay slice) a).windowReply source slice sent marked

/-- A request of a core or a Stevedore to a slice and its reply. -/
def State.roundTrip (s : State) (source slice : Nat) (k : PacketKind) (reply : PacketKind) : State :=
  s.sliceTrip source (.quay (sourceQuay source)) slice k reply

/-- A request of a source to the I/O die and its reply, performed at once (R221, R226, R231, R232). -/
def State.ioTrip (s : State) (source : Nat) (k : PacketKind) (reply : PacketKind) : State :=
  let a := NetEnd.quay (sourceQuay source)
  let marked := s.markBit k a .ioDie
  let s := (s.carry k a .ioDie).carry reply .ioDie a
  if marked then s.count (sourceQuay source) 6 else s

/-! ## Scale-up ports (R232, R233) -/

/-- The port that carries an access to another package's line: n mod 36, or the next in service upward; none where no port
is in service (R232, R233). A BULK packet, which R232 lets take any port in service by occupancy, takes the same. DESIGN CHOICE
(log 77). -/
def State.portOf (s : State) (pa : Nat) : Option Nat :=
  ((List.range 36).map fun k => (pa / 256 + k) % 36).find? fun q => s.inService 6 q

/-- No port reaches the package of a physical address (R232). -/
def State.unreachable (s : State) (pa : Nat) : Bool :=
  match s.target pa with
  | .pod _ => (s.portOf pa).isNone
  | _ => false

/-- The core cycles after which a source resends a request: 16,384 network cycles within the package, 1,048,576 for another
package (R5, R234). -/
def resendAfter (far : Bool) : Nat := if far then 1310720 else 20480

end Sys2Proof.Machine
end

