-- ==== Sys2Proof/Machine/Ops.lean ====
section
/-! DEFINITION. The named operations over the state: where its parts are read and written, events, traps
and the entry of a handler, and how an operation of a slot is checked and performed. -/

namespace Sys2Proof.Machine

/-! ## Parts of the state -/

/-- Element i of a vector, d beyond its end. -/
def vget {α : Type} {n : Nat} (v : Vector α n) (i : Nat) (d : α) : α := if h : i < n then v[i] else d

/-- The vector with x at i; unchanged beyond its end. -/
def vset {α : Type} {n : Nat} (v : Vector α n) (i : Nat) (x : α) : Vector α n :=
  if h : i < n then v.set i x else v

/-- A core, by its global number. -/
def State.core (s : State) (c : Nat) : Core := Map.getD s.cores c Core.reset

def State.setCore (s : State) (c : Nat) (k : Core) : State := { s with cores := Map.set s.cores c k }

/-- A berth of a core. -/
def State.berth (s : State) (c b : Nat) : Berth := vget (s.core c).berths b Berth.reset

def State.setBerth (s : State) (c b : Nat) (x : Berth) : State :=
  s.setCore c { s.core c with berths := vset (s.core c).berths b x }

/-- A berth changed by a function. -/
def State.onBerth (s : State) (c b : Nat) (f : Berth → Berth) : State := s.setBerth c b (f (s.berth c b))

/-- A cluster, by its number. -/
def State.cluster (s : State) (n : Nat) : Cluster := Map.getD s.clusters n Cluster.reset

def State.setCluster (s : State) (n : Nat) (k : Cluster) : State :=
  { s with clusters := Map.set s.clusters n k }

/-- The issuing berth. -/
def State.me (s : State) : Berth := s.berth s.iss.core s.iss.berth

/-- The issuing berth changed by a function. -/
def State.onMe (s : State) (f : Berth → Berth) : State := s.onBerth s.iss.core s.iss.berth f

/-- The registers of the issuing berth changed by a function. -/
def State.onRegs (s : State) (f : Regs → Regs) : State := s.onMe fun b => { b with regs := f b.regs }

/-- The issuing core. -/
def State.myCore (s : State) : Core := s.core s.iss.core

/-- The issuing core changed by a function. -/
def State.onMyCore (s : State) (f : Core → Core) : State := s.setCore s.iss.core (f s.myCore)

/-- The number of the issuing core's cluster, and the cluster. -/
def State.clNum (s : State) : Nat := clusterOf s.iss.core
def State.myCluster (s : State) : Cluster := s.cluster s.clNum

/-- The launch slot of a berth's task; 16, which no launch has, for a berth without a task. -/
def Berth.slot (b : Berth) : Nat :=
  match b.task with
  | some t => t.slot
  | none => 16

/-- The launch slot of the issuing berth. -/
def State.mySlot (s : State) : Nat := s.me.slot

/-- The launch in a slot. -/
def State.launch (s : State) (n : Nat) : Option Launch := Map.get? s.launches n

/-- A row that is due after those already due. -/
def State.later (s : State) (i : Instr) : State := { s with agenda := s.agenda ++ [i] }

/-- The state with the counter of identifiers and free values advanced; the counter's value is the new
identifier. DESIGN CHOICE (log 76). -/
def State.bump (s : State) : State := { s with stamp := s.stamp + 1 }

/-! ## Registers (R30, R290) -/

/-- A scalar source, at its value at the start of the bundle; g0 reads zero (R30, R290). -/
def State.srcG (s : State) (r : BitVec 5) : Word := if r = 0 then 0 else vget s.iss.start.g r.toNat 0

/-- A predicate source at the start of the bundle; k0 reads true (R30, R290). -/
def State.srcK (s : State) (r : BitVec 3) : Bool := r == 0 || vget s.iss.start.k r.toNat false

/-- A handle source at the start of the bundle. -/
def State.srcH (s : State) (r : BitVec 4) : Handle := vget s.iss.start.h r.toNat Handle.zero

/-- A slot predicate: pred, negated by pneg (R292). -/
def State.predIs (s : State) (p : BitVec 3) (n : BitVec 1) : Bool := s.srcK p != (n == 1)

/-- The registers with v in a scalar register; a write to g0 is discarded (R30). -/
def Regs.putG (x : Regs) (r : Nat) (v : Word) : Regs := if r = 0 then x else { x with g := vset x.g r v }

/-- The registers with v in a predicate; a write to k0 is discarded (R30). -/
def Regs.putK (x : Regs) (r : Nat) (v : Bool) : Regs := if r = 0 then x else { x with k := vset x.k r v }

def Regs.putH (x : Regs) (r : Nat) (v : Handle) : Regs := { x with h := vset x.h r v }

def Regs.putQ (x : Regs) (r : Nat) (v : Queue) : Regs := { x with q := vset x.q r v }

def Regs.queue (x : Regs) (r : Nat) : Queue := vget x.q r Queue.zero

/-- A result written to a scalar register, a predicate, a handle of the issuing berth. -/
def State.putG (s : State) (r : BitVec 5) (v : Word) : State := s.onRegs fun x => x.putG r.toNat v
def State.putK (s : State) (r : BitVec 3) (v : Bool) : State := s.onRegs fun x => x.putK r.toNat v
def State.putH (s : State) (r : BitVec 4) (v : Handle) : State := s.onRegs fun x => x.putH r.toNat v

/-- A staging register at the start of the bundle (R31, R290). -/
def State.srcZ (s : State) (r : Nat) : Word := vget s.iss.z r 0

/-! ## Logical time (R192, R194) -/

/-- The clock of a berth on a path. -/
def State.ptsOf (s : State) (c b p : Nat) : Nat := vget (s.berth c b).pts p 0

/-- A berth's clock raised to t, and the core's floor with it (R194). -/
def State.raisePts (s : State) (c b p t : Nat) : State :=
  let s := s.onBerth c b fun x => { x with pts := vset x.pts p (max (vget x.pts p 0) t) }
  s.setCore c { s.core c with floors := vset (s.core c).floors p (max (vget (s.core c).floors p 0) t) }

/-- The timestamp of an access to units with timestamps (wts, rts), from a clock (R192). -/
def accessTs (write : Bool) (pts : Nat) (l : List (Nat × Nat)) : Nat :=
  l.foldl (fun t x => max t (if write then x.2 + 1 else x.1)) pts

/-- The timestamps of a unit after an access at ts (R192). -/
def stampUnit (write : Bool) (ts : Nat) (x : Nat × Nat) : Nat × Nat :=
  if write then (ts, ts) else (x.1, max x.2 (ts + 16))

/-- The units of a size that a range of n bytes touches, ascending, by number. -/
def unitsOf (size addr n : Nat) : List Nat :=
  if n = 0 then [] else (List.range ((addr + n - 1) / size - addr / size + 1)).map fun i => addr / size + i

/-- A block of a cluster's scratchpad, by number. -/
def Cluster.blockNo (k : Cluster) (i : Nat) : Block := Map.getD k.blocks i Block.reset

/-- An access to a scratchpad range from a clock: the state with the blocks' timestamps advanced, and the access's
timestamp (R192). -/
def State.stampSpad (s : State) (cl : Nat) (write : Bool) (pts addr n : Nat) : State × Nat :=
  let k := s.cluster cl
  let l := unitsOf 128 addr n
  let ts := accessTs write pts (l.map fun i => ((k.blockNo i).wts, (k.blockNo i).rts))
  (s.setCluster cl { k with
    blocks := l.foldl (fun (m : Map Block) i =>
      let x := Map.getD m i Block.reset
      let u := stampUnit write ts (x.wts, x.rts)
      Map.set m i { x with wts := u.1, rts := u.2 }) k.blocks }, ts)

/-! ## Lines (R22, R149, R153, R166, R192, R218, R231, R232) -/

/-- A physical line as accesses find it: in L2, at the memory-side atomic unit or in another package, or without
timestamps, as those of host memory are. -/
inductive LineKind where
  | cached
  | uncached
  | untimed
  deriving DecidableEq, Repr

def State.lineKind (s : State) (ms : Bool) (n : Nat) : LineKind :=
  match s.target (256 * n) with
  | .dram => if ms then .uncached else .cached
  | .pod _ => .uncached
  | _ => .untimed

/-- The slice floor that a local line meets (R218). -/
def State.floorOf (s : State) (n : Nat) : Nat := Map.getD s.floors (s.homeSlice (256 * n)) 0

/-- The timestamps of a line: of a local one that L2 does not hold, its slice's floor (R218). -/
def State.lineTs (s : State) (ms : Bool) (n : Nat) : Nat × Nat :=
  match s.lineKind ms n with
  | .cached => (Map.get? s.lines n).getD (s.floorOf n, s.floorOf n)
  | .uncached => Map.getD s.uncached n (0, 0)
  | .untimed => (0, 0)

/-- Other lines that a line's slice holds in the line's set (R22): only a slice that holds as many as a set has ways can have a
full set, whatever set each line falls in. -/
def State.setMates (s : State) (n : Nat) : List Nat :=
  let h := s.homeSlice (256 * n)
  let l := (s.lines.map Prod.fst).filter fun i => i != n && s.homeSlice (256 * i) == h
  if l.length < 16 then [] else l.filter fun i => Config.l2Set i % 512 == Config.l2Set n % 512

/-- A line that L2 holds and that is not pinned may be chosen for eviction (R152). -/
def State.evictable (s : State) (n : Nat) : List Nat := (s.setMates n).filter fun i => Map.getD s.pins i 0 == 0

/-- Copies of a line dropped from the clusters recorded for it (R149). -/
def State.invalidateL1 (s : State) (n : Nat) : State :=
  { s with
    clusters := s.clusters.map fun (e : Nat × Cluster) =>
      if (Map.getD s.sharers n []).contains e.1 then
        (e.1, { e.2 with l1 := e.2.l1.filter fun (x : Nat × L1Line) => x.1 / 4 != n })
      else e
    sharers := Map.erase s.sharers n }

/-- A packet from a slice to the Stevedore through which it reaches a line's stack, and its reply (R219). -/
def State.dramTrip (s : State) (n : Nat) (k reply : PacketKind) : State :=
  let h := s.homeSlice (256 * n)
  let q := stevedoreQuay h (256 * n)
  (s.carry k (.quay h) (.quay q)).carry reply (.quay q) (.quay h)

/-- Sectors of a line read from DRAM: a whole line in one reply, else each by a packet (R151, R215). DEDUCED (log 89). -/
def State.fetchSectors (s : State) (n : Nat) (l : List Nat) : State :=
  if l.length = 4 then s.dramTrip n pkRequest pkLine
  else l.foldl (fun (s : State) _ => s.dramTrip n pkRequest pkSector) s

/-- Sectors of a line written to DRAM, each as one 64-byte write (R151). -/
def State.writeSectors (s : State) (n : Nat) (l : List Nat) : State :=
  l.foldl (fun (s : State) _ => s.dramTrip n (pkWrite 1) pkAnswer) s

/-- A line leaves L2: its dirty sectors are written back, its timestamps join its slice's floor, and L1 copies of it are dropped
(R149, R151, R218). -/
def State.dropLine (s : State) (n : Nat) : State :=
  match Map.get? s.lines n with
  | none => s
  | some x =>
    let h := s.homeSlice (256 * n)
    let s := s.writeSectors n ((List.range 4).filter fun i => bit (Map.getD s.sectors n 0) (4 + i))
    { s.invalidateL1 n with
      lines := Map.erase s.lines n
      sectors := Map.erase s.sectors n
      floors := Map.set s.floors h (max (Map.getD s.floors h 0) (max x.1 x.2)) }

/-- A line has a way in its set, or can have one. -/
def State.hasWay (s : State) (n : Nat) : Bool :=
  (Map.get? s.lines n).isSome || decide ((s.setMates n).length < 16) || !(s.evictable n).isEmpty

/-- A way for a line, where another line of the set may have to leave. -/
def State.makeWay (s : State) (n : Nat) : State :=
  if (Map.get? s.lines n).isSome || decide ((s.setMates n).length < 16) then s
  else
    let l := s.evictable n
    s.dropLine (l.getD (Config.victim n s.packets % l.length) 0)

/-- A line that has a way comes into L2, with no sector yet and the slice's floor as its timestamps (R218). -/
def State.allocate (s : State) (n : Nat) : State :=
  if (Map.get? s.lines n).isSome then s
  else
    let t := s.makeWay n
    { t with lines := Map.set t.lines n (t.floorOf n, t.floorOf n) }

/-- A line takes timestamps: where its set holds only pinned lines it is not allocated, the bypass is counted, and the slice's
floor keeps the timestamps (R153). -/
def State.setLineTs (s : State) (ms : Bool) (n : Nat) (x : Nat × Nat) : State :=
  match s.lineKind ms n with
  | .cached =>
    if s.hasWay n then { s.allocate n with lines := Map.set (s.allocate n).lines n x }
    else
      let h := s.homeSlice (256 * n)
      { s.count h 0xA with floors := Map.set s.floors h (max (Map.getD s.floors h 0) (max x.1 x.2)) }
  | .uncached => { s with uncached := Map.set s.uncached n x }
  | .untimed => s

/-- The sectors of a line that k bytes from an address touch, and those that they cover. -/
def sectorsHit (n pa k : Nat) : List Nat :=
  (List.range 4).filter fun i => decide (pa < 256 * n + 64 * (i + 1)) && decide (256 * n + 64 * i < pa + k)
def sectorsWhole (n pa k : Nat) : List Nat :=
  (List.range 4).filter fun i => decide (pa ≤ 256 * n + 64 * i) && decide (256 * n + 64 * (i + 1) ≤ pa + k)

/-- The sectors of a homed line that an access uses, those that it touches and those that it covers (R151): a read that misses
fetches the rest of the line too; a write fetches a sector that it covers in part; a line that L2 could not take is read and
written in DRAM (R153). -/
def State.useSectors (s : State) (write : Bool) (n : Nat) (hit whole : List Nat) : State :=
  let v := Map.getD s.sectors n 0
  let absent (l : List Nat) : List Nat := l.filter fun i => !bit v i
  let part := hit.filter fun i => !whole.contains i
  if (Map.get? s.lines n).isNone then (if write then (s.fetchSectors n part).writeSectors n hit else s.fetchSectors n hit)
  else
    let fetch := if write then absent part
      else if (absent hit).isEmpty then [] else absent [0, 1, 2, 3]
    let v := (hit ++ fetch).foldl (fun v i => v ||| 2 ^ i) v
    let v := if write then hit.foldl (fun v i => v ||| 2 ^ (4 + i)) v else v
    { s.fetchSectors n fetch with sectors := Map.set s.sectors n v }

/-- A line that an access uses has its way, where it can have one, before its timestamps are read: a line that leaves for it
raises the floor that it starts from (R218). -/
def State.bring (s : State) (ms : Bool) (n : Nat) : State :=
  if s.lineKind ms n = .cached ∧ s.hasWay n then s.allocate n else s

/-- An access at a timestamp recorded at a line. -/
def State.markLine (s : State) (write ms : Bool) (n ts : Nat) (hit whole : List Nat) : State :=
  let t := s.setLineTs ms n (stampUnit write ts (s.lineTs ms n))
  if s.lineKind ms n = .cached then t.useSectors write n hit whole else t

/-- An access to physical memory, of an MS page or not, from a clock: the state with the lines' timestamps advanced, and the
access's timestamp (R192). -/
def State.stampMem (s : State) (write ms : Bool) (pts pa n : Nat) : State × Nat :=
  let l := (unitsOf 256 pa n).filter fun i => s.lineKind ms i != .untimed
  let s := l.foldl (fun (t : State) i => t.bring ms i) s
  let ts := accessTs write pts (l.map (s.lineTs ms))
  (l.foldl (fun (t : State) i => t.markLine write ms i ts (sectorsHit i pa n) (sectorsWhole i pa n)) s, ts)

/-- A scratchpad access of a berth on a path: its clock takes the access's timestamp (R192). -/
def State.touchSpad (s : State) (c b p : Nat) (write : Bool) (addr n : Nat) : State :=
  let (s', ts) := s.stampSpad (clusterOf c) write (s.ptsOf c b p) addr n
  s'.raisePts c b p ts

/-- The requests of an agent of the device for n bytes of physical memory, and their replies: one of each line to its home slice, in the
window of the source that is named for the slice, or to the I/O die; of a line of another memory an agent on the I/O die sends nothing
over the torus (R18, R215, R227, R231, R232). DESIGN CHOICE (log 77). -/
def State.agentTrips (s : State) (source : Nat → Nat) (a : NetEnd) (write : Bool) (pa n : Nat) : State :=
  (unitsOf 256 pa n).foldl (fun (s : State) i =>
    let k := (sectorsHit i pa n).length
    let request := if write then pkWrite k else pkRequest
    let reply := if write then pkAnswer else if k ≤ 1 then pkSector else pkLine
    let h := s.homeSlice (256 * i)
    if s.target (256 * i) = .dram then s.sliceTrip (source h) a h request reply
    else if a = .ioDie then s
    else s.ioTrip (source h) request reply) s

/-- An agent on the I/O die enters at the attached quay nearest to a line's home slice (R18, R221). -/
def dieSource (slice : Nat) : Nat := portSource (attachedQuay slice)

/-- Accesses of the I/O die's agents, such as the launch unit (R18), and of a cluster's overflow engine, in the window of the cluster's
lowest core. -/
def State.dieTrips (s : State) (write : Bool) (pa n : Nat) : State := s.agentTrips dieSource .ioDie write pa n
def State.ringTrips (s : State) (cl : Nat) (write : Bool) (pa n : Nat) : State :=
  s.agentTrips (fun _ => coreSource (16 * cl)) (.quay cl) write pa n

/-- The paths (R188). -/
def pCore : Nat := 0
def pQread : Nat := 1
def pQwrite : Nat := 2
def pCopy : Nat := 3
def pSteve : Nat := 4
def pAccum : Nat := 5
def pXchg : Nat := 6
def pColl : Nat := 7

/-! ## Suspicion scores (R252) -/

/-- A score raised by n, saturating at 255; units are keyed by kind and index. From 128 on the dry-dock sequencer is to
request the unit (R254). -/
def State.raiseScore (s : State) (kind index n : Nat) : State :=
  let k := kind * 2 ^ 24 + index
  let v := min 255 (Map.getD s.scores k 0 + n)
  let s := { s with scores := Map.set s.scores k v }
  if 128 ≤ v then s.later (.dockRequest kind index) else s

/-- The score of a unit. -/
def State.score (s : State) (kind index : Nat) : Nat := Map.getD s.scores (kind * 2 ^ 24 + index) 0

/-! ## Events (R274 to R277) -/

/-- The device posts an event: it goes to the event arbiter, that of a core over the torus, and its acceptance is due (R18,
R274). -/
def State.post (s : State) (e : Event) : State :=
  let s := if e.core < 1536 then s.carry pkUnit (.quay (clusterOf e.core)) .ioDie else s
  { s with raised := s.raised ++ [e] }.later .eventAccept

/-- An event of a berth (R276). -/
def State.postOf (s : State) (c b code arg0 arg1 : Nat) : State :=
  s.post { code := code, lslot := (s.berth c b).slot, berth := b, core := c, arg0 := arg0, arg1 := arg1,
           command := none }

/-- An event of no berth: LSLOT 0xFF or a launch slot, BERTH [7] set, CORE 0xFFFF (R276). -/
def State.postDevice (s : State) (code lslot arg0 arg1 : Nat) : State :=
  s.post { code := code, lslot := lslot, berth := 0x80, core := 0xFFFF, arg0 := arg0, arg1 := arg1,
           command := none }

/-- An event of no berth that an agent at a quay posts: it goes to the arbiter over the torus (R18, R276). -/
def State.postQuay (s : State) (q code lslot arg0 arg1 : Nat) : State :=
  (s.carry pkUnit (.quay q) .ioDie).postDevice code lslot arg0 arg1

/-- An event of some codes waits for the arbiter, whose agent stalls meanwhile (R274). -/
def State.waits (s : State) (codes : List Nat) : Bool := s.raised.any fun e => codes.contains e.code

/-- A row performed, unless an event of its agent waits for the arbiter: the agent stalls, and the row is due again in the next cycle
of the device (R274). -/
def State.unlessHeld (s : State) (codes : List Nat) (i : Instr) (t : State) : State :=
  if s.waits codes then { s with stalledRows := s.stalledRows ++ [i] } else t

/-! ## Messages -/

/-- The step in which a message arrives. -/
def Msg.row (m : Msg) (id : Nat) : Instr :=
  match m with
  | .enq .. => .enqReservationArrive id
  | .qspl .. => .qsplRequestArrive id
  | .qsplReply .. => .qsplReplyArrive id
  | .notice .. => .reservationNoticeArrive id
  | .data .. => .splicedDataArrive id
  | .head .. => .mirroredHeadArrive id
  | .unsplice .. => .unspliceArrive id
  | .xst .. => .xstArrive id
  | .bar .. => .barArrival id
  | .barDone .. => .barCompletionArrive id
  | .coll .. => .collContribution id
  | .acc .. => .acchArrive id

/-- The cluster of the core at the other end of a queue's splice. -/
def State.peerCluster (s : State) (c b q : Nat) : Nat := clusterOf ((s.berth c b).regs.queue q).peerCore

/-- The home of a COLL record: a cluster of this package, or the I/O die on the way to another. -/
def homeEnd (cluster : Nat) : NetEnd := if cluster < 96 then .quay cluster else .ioDie

/-- The packets of a message, by their kinds, and the ends of their way (R215, R220); those that R215 does not list are of one
flit. The packets of an accumulate and of a completion are carried where it is sent. DEDUCED (log 89). -/
def State.msgPackets (s : State) (m : Msg) : List PacketKind × NetEnd × NetEnd :=
  match m with
  | .enq c _ _ cl .. => ([pkRequest], .quay (clusterOf c), .quay cl)
  | .qspl c _ _ _ w => ([pkRequest], .quay (clusterOf c), .quay (clusterOf (bits w.toNat 0 11)))
  | .qsplReply c _ _ _ _ w .. => ([pkAnswer], .quay (clusterOf (bits w.toNat 0 11)), .quay (clusterOf c))
  | .notice c b q => ([pkRequest], .quay (s.peerCluster c b q), .quay (clusterOf c))
  | .data c b q .. =>
    ((dataPackets (cfgBytes ((s.berth c b).regs.queue q).cfg)).map pkData, .quay (s.peerCluster c b q), .quay (clusterOf c))
  | .head c b q _ => ([pkAnswer], .quay (s.peerCluster c b q), .quay (clusterOf c))
  | .unsplice c _ _ pc .. => ([pkRequest], .quay (clusterOf pc), .quay (clusterOf c))
  | .xst cmd cl _ _ n .. =>
    ([pkData n], .quay (clusterOf (((Map.get? s.commands cmd).map Command.core).getD 0)), .quay cl)
  | .bar c _ _ w _ => ([pkRequest], .quay (clusterOf c), .quay (bits w.toNat 30 7))
  | .barDone .. => ([], .ioDie, .ioDie)
  | .coll cmd =>
    match Map.get? s.commands cmd with
    | none => ([], .ioDie, .ioDie)
    | some k =>
      match k.work with
      | .coll j => ((dataPackets j.size).map pkData, .quay (clusterOf k.core), homeEnd j.cluster)
      | _ => ([], .ioDie, .ioDie)
  | .acc .. => ([], .ioDie, .ioDie)
where
  /-- The bytes of an entry under a configuration word (R85). -/
  cfgBytes (w : Word) : Nat := 128 * 2 ^ bits w.toNat 36 3

/-- A request whose reply is still to come arrives marked (R226). -/
def State.setMark (s : State) (id : Nat) (b : Bool) : State :=
  let l := s.marked.filter fun i => i != id
  { s with marked := if b then l ++ [id] else l }

/-- The packets of a message carried; a packet that a router marks leaves its mark with the message's number (R226). -/
def State.carryMsg (s : State) (id : Nat) (m : Msg) : State :=
  let (l, a, b) := s.msgPackets m
  l.foldl (fun (s : State) k =>
    let hit := s.markBit k a b
    let s := s.carry k a b
    if hit then s.setMark id true else s) s

/-- A message sent; its arrival is due. -/
def State.send (s : State) (m : Msg) : State :=
  ({ (s.carryMsg s.stamp m).bump with messages := Map.set s.messages s.stamp m }).later (m.row s.stamp)

/-- A message received: it is gone, and its mark with it. -/
def State.received (s : State) (id : Nat) : State :=
  { s.setMark id false with
    messages := Map.erase s.messages id, sentAt := Map.erase s.sentAt id, resends := Map.erase s.resends id }

/-- The core that sends a message in the class REQ, and the quay of its destination (R220, R223). -/
def State.requestOf (s : State) (m : Msg) : Option (Nat × Nat) :=
  match m with
  | .enq c _ _ cl .. => some (c, cl)
  | .qspl c _ _ _ w => some (c, clusterOf (bits w.toNat 0 11))
  | .notice c b q => some (((s.berth c b).regs.queue q).peerCore, clusterOf c)
  | .bar c _ _ w _ => some (c, bits w.toNat 30 7)
  | _ => none

/-- A REQ packet that a core has sent to a quay is on its way: a later one does not overtake it (R223). A packet that was dropped is
not delivered, and its resent copy is a later one. -/
def State.requestAhead (s : State) (c q : Nat) : Bool :=
  s.messages.any fun e => (Map.get? s.sentAt e.1).isNone && s.requestOf e.2 == some (c, q)

/-! ## Task queues (R70, R102 to R104, R353) -/

/-- The words of a little-endian byte string of 8·n bytes. -/
def wordsOf (n x : Nat) : List Word := (List.range n).map fun i => .ofNat 64 (bits x (64 * i) 64)

/-- Words as a little-endian number. -/
def ofWords : List Word → Nat
  | [] => 0
  | w :: l => w.toNat + 2 ^ 64 * ofWords l

/-- The packets of a hardware queue, oldest first. -/
def State.tq (s : State) (cl n : Nat) : List Packet := Map.getD (s.cluster cl).tqs n []

/-- The spill-ring descriptor of a queue, and its fields (R102). -/
def State.spillAt (s : State) (cl n : Nat) : Nat := s.ctrl.spilltab.toNat + 32 * (16 * cl + n)
def State.ringBase (s : State) (cl n : Nat) : Nat := s.mem.read (s.spillAt cl n) 8
def State.ringLog2 (s : State) (cl n : Nat) : Nat := s.mem.read (s.spillAt cl n + 8) 1
def State.ringQuota (s : State) (cl n : Nat) : Nat :=
  if 20 < s.ringLog2 cl n then 0 else min (s.mem.read (s.spillAt cl n + 0xC) 4) (2 ^ s.ringLog2 cl n)
def State.ringWr (s : State) (cl n : Nat) : Nat := s.mem.read (s.spillAt cl n + 0x10) 4
def State.ringRd (s : State) (cl n : Nat) : Nat := s.mem.read (s.spillAt cl n + 0x14) 4
def State.ringOcc (s : State) (cl n : Nat) : Nat := (s.ringWr cl n + 2 ^ 32 - s.ringRd cl n) % 2 ^ 32

/-- The address of the ring unit that a counter names. -/
def State.ringUnit (s : State) (cl n w : Nat) : Nat :=
  s.ringBase cl n + 32 * (w % 2 ^ s.ringLog2 cl n)

/-- A counter of the descriptor written. -/
def State.putRing (s : State) (cl n off v : Nat) : State :=
  let s := s.ringTrips cl true (s.spillAt cl n + off) 4
  { s with mem := s.mem.write (s.spillAt cl n + off) 4 v }

/-- The cycles that a core has performed, in which ages count (R27, R283, R306). -/
def State.cycleOf (s : State) (c : Nat) : Nat := (s.core c).cycle.toNat

/-- A hardware queue replaced. A packet new at the head, by its number, has its waiting time from now (R76), and the dispatcher
and the overflow engine look at the queue. -/
def State.setTq (s : State) (cl n : Nat) (l : List Packet) : State :=
  let old := (s.tq cl n).head?.map Packet.num
  let l := match l with
    | p :: t => if old = some p.num then p :: t else { p with since := s.cycleOf (16 * cl) } :: t
    | [] => []
  let k := s.cluster cl
  let s := s.setCluster cl { k with tqs := Map.set k.tqs n l }
  let s := if s.ringOcc cl n = 0 then s else s.later (.spillRefill cl n)
  match l with
  | _ :: _ => s.later (.dispatcherOffer cl n)
  | [] => s

/-- The entries a hardware queue has free (R103). -/
def State.tqFree (s : State) (cl n : Nat) : Nat := 32 - (s.tq cl n).foldl (fun t p => t + p.units) 0

/-- A place for a packet of some units reserved in a queue (R103, R353); none where the quota would be breached. The
reservation takes the counter's number. -/
def State.reservePlace (s : State) (cl n units launch : Nat) : Option State :=
  let occ := s.ringOcc cl n
  let r : Reservation := { cluster := cl, tq := n, units := units, launch := launch, ring := none }
  let p : Packet := { words := [], units := units, num := s.stamp, since := s.cycleOf (16 * cl), reserved := some s.stamp }
  if occ = 0 ∧ units ≤ s.tqFree cl n then
    let s' : State := { s.bump with reservations := Map.set s.reservations s.stamp r }
    some (s'.setTq cl n (s.tq cl n ++ [p]))
  else if occ + units ≤ s.ringQuota cl n then
    let wr := s.ringWr cl n
    let hwm := s.mem.read (s.spillAt cl n + 0x18) 4
    let s := { s.bump with reservations := Map.set s.reservations s.stamp { r with ring := some wr } }
    some ((s.putRing cl n 0x10 ((wr + units) % 2 ^ 32)).putRing cl n 0x18 (max hwm (occ + units)))
  else none

/-- A header with the launch slot stamped (R68). -/
def stampHeader (w : Word) (launch : Nat) : Word := .ofNat 64 (setBits w.toNat 32 4 launch)

/-- A packet with its header stamped. -/
def stampPacket (launch : Nat) : List Word → List Word
  | [] => []
  | w :: l => stampHeader w launch :: l

/-- The packet written into its reservation, with LSLOT stamped (R68, R353). At the head of its queue it waits from then on: its place
was absent before (R76). -/
def State.fillPlace (s : State) (id : Nat) (pkt : List Word) : State :=
  match Map.get? s.reservations id with
  | none => s
  | some r =>
    let pkt := stampPacket r.launch pkt
    let s := { s with reservations := Map.erase s.reservations id }
    match r.ring with
    | none =>
      s.setTq r.cluster r.tq ((s.tq r.cluster r.tq).map fun (p : Packet) =>
        if p.reserved = some id then { p with words := pkt, reserved := none, since := s.cycleOf (16 * r.cluster) } else p)
    | some wr =>
      let s := (List.range r.units).foldl (fun (s : State) u =>
        s.ringTrips r.cluster true (s.ringUnit r.cluster r.tq (wr + u)) 32) s
      ({ s with mem := (List.range r.units).foldl (fun (m : Memory) u =>
          m.write (s.ringUnit r.cluster r.tq (wr + u)) 32 (ofWords ((pkt.drop (4 * u)).take 4))) s.mem }).later
        (.spillRefill r.cluster r.tq)

/-- The ring units from a counter on, n of them, moved down by d units (R353). -/
def State.closeRing (s : State) (cl q from_ d : Nat) : Nat → State
  | 0 => s
  | n + 1 =>
    let s := s.closeRing cl q from_ d n
    let s := (s.ringTrips cl false (s.ringUnit cl q (from_ + n + d)) 32).ringTrips cl true (s.ringUnit cl q (from_ + n)) 32
    { s with mem := s.mem.write (s.ringUnit cl q (from_ + n)) 32 (s.mem.read (s.ringUnit cl q (from_ + n + d)) 32) }

/-- A place withdrawn: the positions behind it close up in order (R353), and what stands at a ring's head then may be refilled (R104). -/
def State.withdrawPlace (s : State) (id : Nat) : State :=
  match Map.get? s.reservations id with
  | none => s
  | some r =>
    let s := { s with reservations := Map.erase s.reservations id }
    match r.ring with
    | none => s.setTq r.cluster r.tq ((s.tq r.cluster r.tq).filter fun p => p.reserved != some id)
    | some wr =>
      let after (x : Nat) : Nat := (x + 2 ^ 32 - wr) % 2 ^ 32
      let s := s.closeRing r.cluster r.tq wr r.units (after (s.ringWr r.cluster r.tq) - r.units)
      let s := s.putRing r.cluster r.tq 0x10 ((s.ringWr r.cluster r.tq + 2 ^ 32 - r.units) % 2 ^ 32)
      State.later { s with reservations := s.reservations.map fun (e : Nat × Reservation) =>
          match e.2.ring with
          | some x =>
            if e.2.cluster = r.cluster ∧ e.2.tq = r.tq ∧ r.units ≤ after x ∧ after x < 2 ^ 31 then
              (e.1, { e.2 with ring := some ((x + 2 ^ 32 - r.units) % 2 ^ 32) })
            else e
          | none => e } (.spillRefill r.cluster r.tq)

/-- A berth leaves the lines of its cluster's rings (R109). -/
def State.leaveRings (s : State) (c b : Nat) : State :=
  let k := s.cluster (clusterOf c)
  let out (l : List (Nat × Nat)) : List (Nat × Nat) := l.filter fun x => x != (c, b)
  if k.rings.all fun e => !(e.2.producers ++ e.2.consumers).contains (c, b) then s
  else
    s.setCluster (clusterOf c) { k with rings := k.rings.map fun (e : Nat × Ring) =>
      (e.1, { e.2 with producers := out e.2.producers, consumers := out e.2.consumers }) }

/-- A splice that the bundle has asked for and that was made is undone at both ends, as the bundle takes no effect (R91, R96).
DEDUCED (log 9). -/
def State.undoSplice (s : State) (c b q : Nat) : State :=
  let x := (s.berth c b).regs.queue q
  let back (y : Queue) : Queue := { y with splice := if y.splice = .fed then .openQ else .localQ }
  let put (s : State) (c b q : Nat) : State := s.onBerth c b fun y =>
    { y with
      regs := y.regs.putQ q (back (y.regs.queue q))
      ckpt := y.ckpt.map fun r => r.putQ q (back (r.queue q)) }
  if x.splice = .spliced then put (put s x.peerCore x.peerBerth x.peerQueue) c b q else s

/-- What a berth has asked for its bundle is given up: places granted are withdrawn (R353), splices made are undone, a queue that
awaits its splice is LOCAL again, and the berth leaves the lines in which it waits. -/
def State.giveUp (s : State) (c b : Nat) : State :=
  let l := (s.berth c b).asked
  let s := l.foldl (fun (s : State) a =>
    match a.answer, a.queue with
    | some 0, some q => s.undoSplice c b q
    | some 0, none => s.withdrawPlace a.id
    | none, some q => s.onBerth c b fun x => { x with regs := x.regs.putQ q { x.regs.queue q with splice := .localQ } }
    | _, _ => s) s
  (s.onBerth c b fun x => { x with asked := [], timedOut := [], waited := [], waiting := none, passed := 0 }).leaveRings c b

/-! ## Traps (R263 to R272) -/

/-- The trap codes (R263). -/
def tIllegalBundle : Nat := 0x01
def tIllegalOpcode : Nat := 0x02
def tPriv : Nat := 0x03
def tQunder : Nat := 0x04
def tStallShort : Nat := 0x06
def tPbound : Nat := 0x07
def tHandleInvalid : Nat := 0x08
def tHandleStale : Nat := 0x09
def tPageFault : Nat := 0x0A
def tProt : Nat := 0x0B
def tPoison : Nat := 0x0C
def tSdcCheck : Nat := 0x0D
def tResidue : Nat := 0x0E
def tPairDiverge : Nat := 0x0F
def tSpillQuota : Nat := 0x10
def tCopyOverlap : Nat := 0x11
def tGroupBounds : Nat := 0x12
def tDescInvalid : Nat := 0x13
def tAlign : Nat := 0x14
def tWaitTimeout : Nat := 0x15
def tAccLivein : Nat := 0x16
def tDivzero : Nat := 0x17
def tSoftware : Nat := 0x18
def tBankOwner : Nat := 0x19
def tLoopDepth : Nat := 0x1A

/-- The class of a trap code as SR.CAUSE.CLASS (R263, R270). -/
def trapClass (code : Nat) : Nat :=
  if code = tPoison ∨ code = tSdcCheck ∨ code = tResidue ∨ code = tPairDiverge then 1
  else if code = tStallShort ∨ code = tPbound ∨ code = tWaitTimeout then 2
  else if code = tSoftware then 3
  else 0

/-- SR.CAUSE of a trap (R270). -/
def Trap.cause (t : Trap) : Word := .ofNat 64 (t.code + trapClass t.code * 2 ^ 8 + t.slot * 2 ^ 11 + t.timm * 2 ^ 16)

/-- A trap of the operation's own slot with a record for SR.EINFO (R272). -/
def State.trap (s : State) (code info : Nat) : Trap := { code := code, slot := s.iss.slot, timm := 0, info := info }

/-- The form of a record: SUB in [62:60] (R272). -/
def sub (n info : Nat) : Nat := n * 2 ^ 60 + info

/-- The berth's task is to retire as failed: the berth drains (R35, R39, R265). -/
def Berth.fail (b : Berth) : Berth := { b with status := .draining, failed := true }

/-- The entry of a handler (R265, R266) for trap t with SR.EPC epc, when the open segment has committed and
no result is outstanding: a double trap and a trap without a handler retire the task as failed. -/
def State.enterHandler (s : State) (c b : Nat) (t : Trap) (epc : BitVec 11) : State :=
  let s := s.giveUp c b
  let x := s.berth c b
  let handler : BitVec 11 := (s.core c).tvec.setWidth 11
  if x.sup then
    -- a double trap (R266)
    (s.postOf c b 0x000E t.cause.toNat x.regs.cause.toNat).setBerth c b x.fail |>.later (.taskRetire c b)
  else if handler = 0 then
    -- no handler (R265); a second failure is handled under R245
    let code := if trapClass t.code = 1 then 0x000B else 0x000C
    (s.postOf c b code t.cause.toNat epc.toNat).setBerth c b x.fail |>.later (.taskRetire c b)
  else
    s.setBerth c b
      { x with
        regs := { x.regs with
          cause := t.cause
          epc := epc.setWidth 64
          einfo := .ofNat 64 t.info
          count := 0
          pc := handler }
        status := .ready
        sup := true
        entryCause := t.cause
        einfoUnread := false
        ya := 0, yb := 0, yc := 0, vsel := 0
        produced := []
        pboundDue := false
        waited := []
        afterSync := false
        afterYield := false
        afterPre := false
        park := none
        rewinding := false
        deferred := none
        passed := 0
        steered := false
        closing := false
        matched := false
        entryNext := true }

/-- The issuing berth waits at its bundle, which takes no effect (R91, R35). -/
def State.stall (s : State) : State := s.onMe fun b => { b with status := .stalled }

/-- The issuing berth takes a precise or program trap at its bundle: an open segment commits first and
outstanding results are awaited (R246, R265, R301); then the handler is entered. -/
def State.takeTrap (s : State) (t : Trap) : State :=
  if s.me.ckpt.isSome then
    (s.stall.onMe fun b => { b with closing := true }).later (.segmentCommit s.iss.core s.iss.berth)
  else if s.me.outstanding ≠ [] then s.stall
  else s.enterHandler s.iss.core s.iss.berth t s.iss.start.pc

/-- The return from a handler (R267): SUP is cleared, a held engine record is written, and issue goes on at
SR.EPC, a segment entry. -/
def State.leaveHandler (s : State) : State :=
  s.onMe fun b =>
    { b with
      sup := false
      regs := { b.regs with
        pc := b.regs.epc.setWidth 11
        einfo := b.heldEngine.getD b.regs.einfo }
      einfoUnread := b.heldEngine.isSome
      heldEngine := none
      produced := []
      entryNext := true }

/-- The place of an error of the rollback class in the order of R264. -/
def errorRank (t : Trap) : Nat :=
  if t.code = tPoison then (if t.info / 2 ^ 60 = 3 then 1 else 0)
  else if t.code = tSdcCheck then 2 else if t.code = tResidue then 3 else 4

/-- An error of the rollback class that concerns a berth (R244): it is taken at the berth's next bundle boundary; of several,
the first in the order of R264 is kept. -/

def Berth.addError (b : Berth) (e : RollError) : Berth :=
  match b.error with
  | none => { b with error := some e }
  | some o =>
    if errorRank e.trap < errorRank o.trap then { b with error := some { e with released := e.released || o.released } }
    else { b with error := some { o with released := e.released || o.released } }

def State.raiseError (s : State) (c b : Nat) (t : Trap) (released : Bool) : State :=
  s.onBerth c b fun x => x.addError { trap := t, released := released }

/-! ## Verdicts -/

/-- What the checks of an operation decide (R91, R264). -/
inductive Verdict where
  | pass
  | wait
  | trap (t : Trap)
  /-- The bundle takes no effect and the berth parks on a page fault of a handle (R164). -/
  | park (handle : Nat) (write : Bool) (t : Trap)
  /-- The operand consumes poison: an error of the rollback class (R160, R163). -/
  | poison (t : Trap)
  /-- The operation sends a request, and the bundle waits for the answer (R96, R353); the packet of an ENQ as it was read. -/
  | ask (slot : Nat) (m : Msg) (packet : List Word)
  /-- The operation waits for a ring's counter, in the line of those that arrived before it (R109). -/
  | line (ring : Nat) (consumer : Bool)
  deriving DecidableEq, Repr

/-- The first verdict that is not a pass, in order. -/
def Verdict.andThen (v w : Verdict) : Verdict :=
  match v with
  | .pass => w
  | _ => v

/-- A check that traps where its condition fails. -/
def need (c : Bool) (t : Trap) : Verdict := if c then .pass else .trap t

/-- A check that waits until its condition holds. -/
def await (c : Bool) : Verdict := if c then .pass else .wait

/-- The checks of a list, in order. -/
def allChecks (l : List Verdict) : Verdict := l.foldl Verdict.andThen .pass

/-! ## Scratchpad ranges -/

/-- The size of a cluster's scratchpad, and of a bank (R146). -/
def spadSize : Nat := 2 ^ 22
def bankSize : Nat := 2 ^ 17

/-- A bank of a cluster. -/
def Cluster.bank (k : Cluster) (n : Nat) : Bank := vget k.banks n Bank.reset

/-- The banks that a range of n > 0 bytes touches below 4 MiB, ascending. -/
def rangeBanks (addr n : Nat) : List Nat :=
  (List.range 32).filter fun b => decide (addr < (b + 1) * bankSize) && decide (b * bankSize < addr + n)

/-- The record of BANK_OWNER (R272) for a range of a launch, in banks whose mode passes ok: the first bank in
ascending order that fails, then a range beyond 4 MiB; none when the range may be accessed (R48). -/
def Cluster.rangeError (k : Cluster) (slot : Nat) (ok : BankMode → Bool) (addr n : Nat) : Option Nat :=
  match (rangeBanks addr n).find? fun b => !ok (k.bank b).mode || (k.bank b).owner != some slot with
  | some b => some ((if ok (k.bank b).mode then 0 else 2 ^ 5) + b)
  | none => if spadSize < addr + n then some (2 ^ 6) else none

/-- Scratchpad mode only: LDS, STS, queues, rings, sync words, residual tables (R146). -/
def spadMode (m : BankMode) : Bool := m == .scratchpad

/-- The check of R48 for a scratchpad range of a cluster, as the issuing berth uses it. -/
def State.bankCheckAt (s : State) (cl addr n : Nat) : Verdict :=
  match (s.cluster cl).rangeError s.mySlot spadMode addr n with
  | some info => .trap (s.trap tBankOwner info)
  | none => .pass

/-- The check of R48 for a scratchpad range of the issuing berth's cluster. -/
def State.bankCheck (s : State) (addr n : Nat) : Verdict := s.bankCheckAt s.clNum addr n

/-- The check that an address is a multiple of n (ALIGN, SUB 1; R272). -/
def State.alignCheck (s : State) (addr n : Nat) : Verdict := need (addr % n == 0) (s.trap tAlign (sub 1 addr))

/-! ## Operand queues (R85 to R98) -/

/-- The fields of a configuration word (R85). -/
def cfgBase (w : Word) : Nat := bits w.toNat 0 22
def cfgEsize (w : Word) : Nat := 128 * 2 ^ bits w.toNat 36 3
def cfgCap (w : Word) : Nat := 2 ^ bits w.toNat 40 4
def cfgDesc (w : Word) : Nat := bits w.toNat 48 8

def Queue.esize (q : Queue) : Nat := cfgEsize q.cfg
def Queue.cap (q : Queue) : Nat := cfgCap q.cfg
def Queue.desc (q : Queue) : Nat := cfgDesc q.cfg

/-- The occupancy (R87). -/
def Queue.occ (q : Queue) : Nat := (q.tail - q.head).toNat

/-- The scratchpad address of the slot that a counter names under a configuration word (R87). -/
def cfgSlot (w : Word) (c : BitVec 16) : Nat := cfgBase w + c.toNat % cfgCap w * cfgEsize w

def Queue.slotAddr (q : Queue) (c : BitVec 16) : Nat := cfgSlot q.cfg c

/-- A queue that its own berth reads and pops (R97). -/
def Queue.readable (q : Queue) : Bool :=
  match q.splice with
  | .localQ => true
  | .openQ => true
  | .fed => true
  | _ => false

/-- A block of scratchpad (R87). -/
def Cluster.block (k : Cluster) (addr : Nat) : Block := Map.getD k.blocks (addr / 128) Block.reset

def Cluster.setBlock (k : Cluster) (addr : Nat) (x : Block) : Cluster :=
  { k with blocks := Map.set k.blocks (addr / 128) x }

/-- The blocks of a range changed by a function, n blocks from the one that holds the address. -/
def Cluster.onBlocks (k : Cluster) (addr n : Nat) (f : Block → Block) : Cluster :=
  match n with
  | 0 => k
  | n + 1 => (k.setBlock addr (f (k.block addr))).onBlocks (addr + 128) n f

/-- Whether a block of a range of n blocks carries a poison mark; the address of the first that does. -/
def Cluster.marked (k : Cluster) (addr n : Nat) : Option Nat :=
  (List.range n).findSome? fun i => if (k.block (addr + 128 * i)).mark then some (addr + 128 * i) else none

/-- A source entry: the queue and the offset from its head (R89). -/
structure Entry where
  queue : Nat
  offset : Nat
  deriving DecidableEq, Repr

/-- The queue of a source at the start of the bundle (R89). -/
def State.srcQ (s : State) (n : Nat) : Queue := s.iss.start.queue n

/-- The scratchpad address of a source entry. -/
def State.entryAddr (s : State) (e : Entry) : Nat :=
  (s.srcQ e.queue).slotAddr ((s.srcQ e.queue).head + .ofNat 16 e.offset)

/-- The tiles of a subscription (R429). -/
def Sub.count (x : Sub) : Nat := bits x.z0.toNat 16 20

/-- Pushes remain to a queue of the issuing berth (R430). -/
def State.pushesRemain (s : State) (n : Nat) : Bool :=
  s.me.subs.any fun e => e.2.queue == n && !e.2.stopped && decide (e.2.begun < e.2.count)

/-- The check of R90 for a source: the offset is below the occupancy, or the queue is FED and the bundle waits
(R99); a queue that is not readable traps with SPLICE (R97). -/
def State.distance (s : State) (e : Entry) : Verdict :=
  let q := s.srcQ e.queue
  if !q.readable then .trap (s.trap tQunder (2 ^ 9 + e.offset * 4 + e.queue))
  else if e.offset < q.occ then s.bankCheck (s.entryAddr e) q.esize
  else if q.splice = .fed || s.pushesRemain e.queue then .wait
  else .trap (s.trap tQunder (e.offset * 4 + e.queue))

/-- A result of the issuing berth is on its way to a range of n bytes. -/
def State.resultTo (s : State) (addr n : Nat) (w : Writeback) : Bool :=
  w.core == s.iss.core && w.berth == s.iss.berth && decide (w.addr < addr + n) && decide (addr < w.addr + w.esize)

/-- No result of the issuing berth is on its way to a range, so that its accesses stand in program order (R195). -/
def State.spadQuiet (s : State) (addr n : Nat) : Bool :=
  (s.writebacks.all fun e => !(s.resultTo addr n e.2)) &&
    (s.myCore.half0 ++ s.myCore.half1).all fun m => (m.dest.map fun w => !(s.resultTo addr n w)).getD true

/-- The odd member of a redundant pair, whose copies of single effects are discarded (R249). -/
def State.odd (s : State) : Bool := s.me.red && s.iss.core % 2 == 1

/-- The other member of the issuing berth's redundant pair (R248). -/
def State.twin (s : State) : Berth :=
  match s.me.task.bind Task.partner with
  | some (c, b) => s.berth c b
  | none => s.me

/-- An odd member that has gone ahead of the even one (R247, R250) reads no entry that the even member, which makes the pair's
appends to the shared slots, has still to append (R249). -/
def State.twinAppended (s : State) (e : Entry) : Bool :=
  if s.odd && decide (s.twin.issued ≤ s.me.issued) then
    let d := ((s.twin.regs.queue e.queue).tail - ((s.srcQ e.queue).head + .ofNat 16 e.offset)).toNat
    decide (1 ≤ d) && decide (d < 2 ^ 15)
  else true

/-- A source entry is present (R91), with every earlier result that the berth itself writes to its bytes landed (R195). -/
def State.entryHere (s : State) (e : Entry) : Bool :=
  let a := s.entryAddr e
  (s.myCluster.block a).present && s.spadQuiet a (s.srcQ e.queue).esize && s.twinAppended e

/-- The wait of R91 for source entries, among the checks common to a slot (R314). -/
def State.entriesHere (s : State) (l : List Entry) : Verdict := await (l.all s.entryHere)

/-- The presence of a source entry (R91), and the poison its blocks carry (R163). -/
def State.presence (s : State) (e : Entry) : Verdict :=
  if !s.entryHere e then .wait
  else
    match s.myCluster.marked (s.entryAddr e) ((s.srcQ e.queue).esize / 128) with
    | some x => .poison (s.trap tPoison (sub 1 x))
    | none => .pass

/-- An append of an operation to a queue, counted in entries (R91, R92). -/
structure Append where
  queue : Nat
  entries : Nat
  deriving DecidableEq, Repr

/-- The room condition of R91 (R98 on a SPLICED queue) for a appends to queue n with p pops. -/
def State.room (s : State) (n a p : Nat) : Bool :=
  let q := s.srcQ n
  match q.splice with
  | .spliced => decide ((q.remoteTail - q.mirrored).toNat + a ≤ cfgCap q.peerCfg)
  | _ => decide (q.occ + a ≤ q.cap + p)

/-- The pop of a queue by the header of the bundle (R93): 1 or 0. -/
def State.pops (s : State) (n : Nat) : Nat := if s.iss.hdr.pop.getLsbD n then 1 else 0

/-! ## Operations of a slot -/

/-- One register as a source or destination: its file (0 g, 1 h, 2 k) and number. -/
abbrev RegName := Nat × Nat

/-- The meaning of an operation of a slot: its slot predicate, the registers it reads and writes (a write with
its nominal latency, none where the result is interlocked; R301), its privilege check, its checks in the
order of its entry, the entries it reads and appends (R91), and its effect. -/
structure OpSem where
  pred : State → Bool
  reads : List RegName
  writes : List (RegName × Option Nat)
  priv : State → Option Trap
  check : State → List Verdict
  sources : State → List Entry
  appends : State → List Append
  effect : State → State

/-- An operation that is performed as part of its own segment and has nothing to check. -/
def OpSem.plain (pred : State → Bool) (reads : List RegName) (writes : List (RegName × Option Nat))
    (effect : State → State) : OpSem :=
  { pred := pred, reads := reads, writes := writes, priv := fun _ => none, check := fun _ => [],
    sources := fun _ => [], appends := fun _ => [], effect := effect }

/-- The slot in which an operation stands in the bundle being issued, as SR.CAUSE.SLOT (R270). -/
def slotNum (k : SlotKind) (cur : Nat) : Nat :=
  match k with
  | .scalar => if cur = 1 then 1 else 2
  | .vector => 3
  | .matrix => 4
  | .engine => 5
  | .pack => 6

/-- The trap of an operation that its slot does not accept (R289, R272). -/
def State.illegal (s : State) (i : Instr) : Trap :=
  match i.slotKind, encode i with
  | some k, some w => s.trap tIllegalOpcode ((k.badOpcode w).1 + (k.badOpcode w).2 * 2 ^ 8)
  | _, _ => s.trap tIllegalOpcode 0

/-- The state with the operation's slot named as the one that acts. -/
def State.inSlot (s : State) (k : Option SlotKind) : State :=
  match k with
  | some k => { s with iss := { s.iss with slot := slotNum k s.iss.slot } }
  | none => s

/-- The queue that a message asks to splice (R96). -/
def Msg.splices (m : Msg) : Option Nat :=
  match m with
  | .qspl _ _ _ q _ => some q
  | _ => none

/-- The issuing berth joins the line of a ring's counter, unless it stands there (R109). -/
def State.joinRing (s : State) (n : Nat) (consumer : Bool) : State :=
  let me := (s.iss.core, s.iss.berth)
  match Map.get? s.myCluster.rings n with
  | none => s
  | some r =>
    if (if consumer then r.consumers else r.producers).contains me then s
    else
      let r := if consumer then { r with consumers := r.consumers ++ [me] } else { r with producers := r.producers ++ [me] }
      s.setCluster s.clNum { s.myCluster with rings := Map.set s.myCluster.rings n r }

/-- A verdict other than a pass, applied to the issuing berth. -/
def State.refuseBundle (s : State) (v : Verdict) : State :=
  match v with
  | .pass => s
  | .wait => s.stall
  | .trap t => s.takeTrap t
  | .park h w t =>
    (s.stall.onMe fun b => { b with park := some (.pageFault h w t) }).later
      (.pageFaultPark s.iss.core s.iss.berth h)
  | .poison t => (s.stall.raiseError s.iss.core s.iss.berth t false)
  | .ask k m packet =>
    if s.me.asked.any fun a => a.slot == k then s.stall
    else
      ((s.stall.onMe fun b =>
        { b with asked := b.asked ++ [{ slot := k, id := s.stamp, answer := none, queue := m.splices, packet := packet }] }).send
          m).onRegs fun x =>
            match m with
            | .qspl _ _ _ q _ => x.putQ q { x.queue q with splice := .splicing }
            | _ => x
  | .line r consumer => s.stall.joinRing r consumer

/-- The conditions of R91 for a list of operations' sources and appends: every entry present, and room in every
queue for the appends of all of them. -/
def State.issueReady (s : State) (sources : List Entry) (appends : List Append) : Verdict :=
  let room := (List.range 4).all fun n =>
    let a := (appends.filter fun x => x.queue == n).foldl (fun t x => t + x.entries) 0
    a == 0 || s.room n a (s.pops n)
  (sources.foldl (fun (v : Verdict) e => v.andThen (s.presence e)) Verdict.pass).andThen (await room)

/-- The operand reads of queue entries, on the QREAD path (R188, R192). -/
def State.readEntries (s : State) (l : List Entry) : State :=
  l.foldl (fun (s : State) e =>
    s.touchSpad s.iss.core s.iss.berth pQread false (s.entryAddr e) (s.srcQ e.queue).esize) s

/-- The registers named copied from the other member of the pair. -/
def State.copyTwin (s : State) (l : List RegName) : State :=
  let t := s.twin.regs
  l.foldl (fun (s : State) r => s.onRegs fun x =>
    if r.1 = 0 then x.putG r.2 (vget t.g r.2 0) else x.putK r.2 (vget t.k r.2 false)) s

/-- A trap of the even member at an operation that it performs for both is the odd member's own (R249). -/
def State.twinTrap (s : State) : Verdict :=
  let t := s.twin
  if t.sup && !s.me.sup then
    let c := t.regs.cause.toNat
    .trap { code := bits c 0 8, slot := bits c 11 3, timm := bits c 16 12, info := t.regs.einfo.toNat }
  else .pass

/-- The odd member waits for the outcome of an operation that the even member performs for both (R249). -/
def State.twinCheck (s : State) (l : List RegName) : Verdict :=
  let t := s.twin
  s.twinTrap.andThen (await (t.awaiting.isNone && t.outstanding.all fun p => !l.contains (p.file, p.num)))

/-- An operation that the even member of a redundant pair performs once; both receive its results (R249, R325, R348). -/
def OpSem.once (o : OpSem) : OpSem :=
  { o with
    check := fun s => if s.odd then [s.twinCheck (o.writes.map Prod.fst)] else o.check s
    effect := fun s => if s.odd then s.copyTwin (o.writes.map Prod.fst) else o.effect s }

/-- An operation performed: its operand entries are read, and it has its effect. -/
def OpSem.perform (o : OpSem) (s : State) : State := o.effect (s.readEntries (o.sources s))

/-- An operation performed by itself, as the only slot of its bundle: an illegal one traps, one whose
predicate is false does nothing, and otherwise its checks decide (R264, R289, R290, R292). -/
def runSlot (i : Instr) (o : OpSem) (s : State) : Host.Outcome State Fault Refusal :=
  let s := s.inSlot i.slotKind
  if !i.wellFormed then .next (s.takeTrap (s.illegal i))
  else if !o.pred s then .next s
  else
    match o.priv s with
    | some t => .next (s.takeTrap t)
    | none =>
      match (allChecks (o.check s)).andThen (s.issueReady (o.sources s) (o.appends s)) with
      | .pass => .next (o.perform s)
      | v => .next (s.refuseBundle v)

end Sys2Proof.Machine
end

