-- ==== Sys2Proof/Machine/Translate.lean ====
section
/-! DEFINITION. Scratchpad ranges and their banks (R48, R146), held scratchpad writes (R241), the physical
map (R154), the page table and its walk (R155, R156), poison bits (R163), handles and the checks of R160. -/

namespace Sys2Proof.Machine

/-! ## Sync words (R111 to R113) -/

/-- n bytes counted against the sync word at an address (R112). -/
def countSync (m : Memory) (a n : Nat) : Memory :=
  let target := m.read a 4
  let count := m.read (a + 4) 4 + n
  let gen := m.read (a + 8) 4
  let flags := m.read (a + 12) 4
  if target ≠ 0 ∧ target ≤ count then
    let m := if target < count then m.write (a + 12) 4 (flags ||| 1) else m
    (m.write (a + 4) 4 0).write (a + 8) 4 ((gen + 1) % 2 ^ 32)
  else if 2 ^ 32 ≤ count then (m.write (a + 4) 4 (2 ^ 32 - 1)).write (a + 12) 4 (flags ||| 4)
  else m.write (a + 4) 4 count

/-- SHORT set at a sync word (R112). -/
def shortSync (m : Memory) (a : Nat) : Memory := m.write (a + 12) 4 (m.read (a + 12) 4 ||| 2)

/-- SWSET at a sync word (R113). -/
def setSync (m : Memory) (a v : Nat) : Memory :=
  ((m.write a 4 v).write (a + 4) 4 0).write (a + 12) 4 0

/-! ## Held scratchpad writes (R195, R241) -/

/-- Scratchpad as a berth sees it: with its own held writes, in program order (R195, R241). -/
def heldView (held : List Held) (m : Memory) : Memory :=
  held.foldl (fun m h => match h with
    | .sts a n v => m.write a n v
    | .swset a v => setSync m a v
    | .swadd a v => countSync m a v
    | _ => m) m

/-- Held STS writes without the bytes of a range that a later access of the berth writes at once (R195). -/
def trimHeld (held : List Held) (addr n : Nat) : List Held :=
  (held.map fun h => match h with
    | .sts a k v =>
      if a + k ≤ addr ∨ addr + n ≤ a then [h]
      else ((List.range k).filter fun i => decide (a + i < addr) || decide (addr + n ≤ a + i)).map fun i =>
        .sts (a + i) 1 (bits v (8 * i) 8)
    | _ => [h]).flatten

/-- n bytes of scratchpad as the issuing berth's view of it stood at the bundle's start (R290). DEDUCED (log 35). -/
def State.startView (s : State) (addr n : Nat) : Nat := s.iss.spad.read addr n

/-! ## The page table -/

/-- The bands withdrawn from local DRAM (R259): band k covers (768 − 6k) to (768 − 6(k − 1)) GiB. -/
def State.bandWithdrawn (s : State) (pa : Nat) : Bool :=
  s.records.any fun r => r.cause == 4 && decide ((768 - 6 * r.band) * 2 ^ 30 ≤ pa) &&
    decide (pa < (768 - 6 * (r.band - 1)) * 2 ^ 30)

/-- A walk that ends without a leaf. -/
def Walk.none (fault : Nat) : Walk := { fault := fault, leafAt := 0, leaf := 0, large := false }

/-- The fault of a valid leaf (R154, R156). -/
def State.leafFault (s : State) (e : Nat) (large : Bool) : Nat :=
  if bits e 10 6 ≠ 0 ∨ bit e 8 ∨ bit e 2 then tProt
  else if large ∧ bits e 16 9 ≠ 0 then tProt
  else
    let pa := bits e 16 36 * 2 ^ 16
    if s.target pa = .reserved ∨ s.bandWithdrawn pa then tProt else 0

/-- The leaf of a walk, with its fault. -/
def State.leafWalk (s : State) (at_ e : Nat) (large : Bool) : Walk :=
  { fault := s.leafFault e large, leafAt := at_, leaf := e, large := large }

/-- The last level of a walk, from the level-2 entry that points to its table (R155, R156). -/
def State.walkPage (s : State) (va e2 : Nat) : Walk :=
  let at_ := bits e2 12 40 * 2 ^ 12 + 8 * bits va 16 9
  let e := s.mem.read at_ 8
  if !bit e 0 then .none tPageFault
  else if !bit e 1 then .none tProt
  else s.leafWalk at_ e false

/-- The walk of a virtual address (R155, R156) from the translation root. An address beyond 56 bits carries
PROT (R154). -/
def State.walk (s : State) (va : Nat) : Walk :=
  if 2 ^ 56 ≤ va then .none tProt
  else
    let entry (table idx : Nat) : Nat × Nat := (table + 8 * idx, s.mem.read (table + 8 * idx) 8)
    let next (e : Nat) : Nat := bits e 12 40 * 2 ^ 12
    let (_, e0) := entry s.ctrl.xroot.toNat (bits va 43 13)
    if !bit e0 0 then .none tPageFault
    else if bit e0 1 then .none tProt
    else
      let (_, e1) := entry (next e0) (bits va 34 9)
      if !bit e1 0 then .none tPageFault
      else if bit e1 1 then .none tProt
      else
        let (a2, e2) := entry (next e1) (bits va 25 9)
        if !bit e2 0 then .none tPageFault
        else if bit e2 1 then s.leafWalk a2 e2 true
        else s.walkPage va e2

/-- Fields of a leaf (R156). -/
def Walk.gen (w : Walk) : Nat := bits w.leaf 52 12
def Walk.mig (w : Walk) : Bool := bit w.leaf 9
def Walk.ms (w : Walk) : Bool := bit w.leaf 7
def Walk.crit (w : Walk) : Bool := bit w.leaf 6
def Walk.atm (w : Walk) : Bool := bit w.leaf 5
def Walk.w (w : Walk) : Bool := bit w.leaf 4
def Walk.rd (w : Walk) : Bool := bit w.leaf 3

/-- Whether a walk found a leaf. -/
def Walk.hasLeaf (w : Walk) : Bool := bit w.leaf 1

/-- The frame of the 64 KiB region of an address: the leaf's, or its sub-page of a 32 MiB page (R158). -/
def Walk.frame (w : Walk) (va : Nat) : Nat :=
  bits w.leaf 16 36 + (if w.large then bits va 16 9 else 0)

/-- The physical address of a virtual address under a walk. -/
def Walk.pa (w : Walk) (va : Nat) : Nat := w.frame va * 2 ^ 16 + va % 2 ^ 16

/-- The poison bit of the granule of a physical address of local DRAM (R163). -/
def State.poisoned (s : State) (pa : Nat) : Bool :=
  s.target pa == .dram &&
    bit (s.mem.byte (s.ctrl.poisonmap.toNat + pa / 4096 / 8)).toNat (pa / 4096 % 8)

/-- Data read at a physical address carry a poison mark: of a poisoned granule of local DRAM, or of another package's memory to which
marked data went (R163). -/
def State.marksData (s : State) (pa : Nat) : Bool :=
  s.poisoned pa || (match s.target pa with
    | .pod _ => Map.getD s.farPoison (pa / 4096) false
    | _ => false)

/-- The sixteen poison bits of a 64 KiB region (R158); none for a remote frame (R163). -/
def State.regionPoison (s : State) (frame : Nat) : BitVec 16 :=
  .ofNat 16 (packElems16 ((List.range 16).map fun g => s.poisoned (frame * 2 ^ 16 + 4096 * g)))
where
  /-- Bits packed from bit 0. -/
  packElems16 : List Bool → Nat
    | [] => 0
    | b :: l => (if b then 1 else 0) + 2 * packElems16 l

/-- The words that four reads of a leaf return: the first is the leaf, and each further one differs from it in the bits of a free
value, none unless a read errs (R157). -/
def State.leafReads (s : State) (at_ e i : Nat) : Nat := e ^^^ (Config.reread at_ i s.now).toNat

/-- The leaf of a walk as a translation takes it (R157): where CRIT is set, two further reads are made where the first two differ, and
POISON is carried where these differ too. The word that they agree on is checked as the first was (R156); what it is as a pointer is
given. -/
def State.critLeaf (s : State) (pointer : Nat → Walk) (w : Walk) : Walk :=
  if !bit w.leaf 6 || !bit w.leaf 1 then w
  else if s.leafReads w.leafAt w.leaf 1 = w.leaf then w
  else if s.leafReads w.leafAt w.leaf 2 = s.leafReads w.leafAt w.leaf 3 then
    let e := s.leafReads w.leafAt w.leaf 2
    if !bit e 0 then .none tPageFault
    else if !bit e 1 then pointer e
    else s.leafWalk w.leafAt e w.large
  else { w with fault := tPoison }

/-- The walk of an address as a translation takes it: the word of a 32 MiB leaf that is read again as a pointer leads to the last level
(R155, R157). -/
def State.critWalk (s : State) (va : Nat) (w : Walk) : Walk :=
  let page (_ : Nat) : Walk := .none tProt
  s.critLeaf (fun e => if w.large then s.critLeaf page (s.walkPage va e) else .none tProt) w

/-- The translation of a virtual address: a walk, with the reads of R157. -/
def State.translate (s : State) (va : Nat) : Walk := s.critWalk va (s.walk va)

/-- The channel of a physical address: its stack (R219), and within it a channel that is private to the base die. Free value
(log 71). -/
def channelOf (pa : Nat) : Nat := 132 * stackOfAddr pa + Config.channel pa % 128

/-- The channel of a leaf charged where its reads do not agree (R157, R252). -/
def State.chargeWalk (s : State) (w : Walk) : State :=
  if w.fault = tPoison then s.raiseScore 5 (channelOf w.leafAt) 32 else s

/-- The handle that a finished walk leaves (R158, R159). -/
def State.loadHandle (s : State) (va : Nat) : Handle :=
  let w := s.translate va
  { vpn := .ofNat 40 (va / 2 ^ 16), frame := .ofNat 36 (w.frame va), psz := w.large, rd := w.rd, w := w.w,
    atm := w.atm, crit := w.crit, ms := w.ms, gen := .ofNat 12 w.gen,
    poison := if w.fault = 0 then s.regionPoison (w.frame va) else 0,
    fault := .ofNat 8 w.fault, ready := true, valid := true, loaded := true, leaf := w.hasLeaf }

/-! ## The checks of an access through a handle (R160) -/

/-- The permissions an access needs: RD, W, ATM. -/
structure Needs where
  rd : Bool
  w : Bool
  atm : Bool
  deriving DecidableEq, Repr

/-- The granules of a region that an access of n bytes at an offset touches. -/
def touchedGranules (off n : Nat) : List Nat :=
  (List.range 16).filter fun g => decide (off < 4096 * (g + 1)) && decide (4096 * g < off + n)

/-- The page of a handle has been revoked since its translation: its leaf's generation is another (R161). A translation that
ended without a leaf has none to compare. DEDUCED (log 28). -/
def State.revoked (s : State) (x : Handle) : Bool :=
  let w := s.walk (x.vpn.toNat * 2 ^ 16)
  x.leaf && (!w.hasLeaf || w.gen != x.gen.toNat)

/-- The checks of R160, in order, of an access of n bytes at an offset through handle number h. -/
def State.accessCheck (s : State) (h : BitVec 4) (off n : Nat) (needs : Needs) : Verdict :=
  let x := s.srcH h
  let info := off % 2 ^ 17 * 16 + h.toNat
  if !x.loaded then .trap (s.trap tHandleInvalid info)
  else if !x.ready then .wait
  else if !x.valid || s.revoked x then
    .trap (s.trap tHandleStale info)
  else if x.fault.toNat = tPageFault then .park h.toNat needs.w (s.trap tPageFault (x.vpn.toNat * 2 ^ 16 + off % 2 ^ 16))
  else if x.fault.toNat = tPoison then .poison (s.trap tPoison (sub 4 h.toNat))
  else if x.fault ≠ 0 then .trap (s.trap tProt (sub 3 h.toNat))
  else if 65536 < off + n then .trap (s.trap tProt info)
  else if off % n ≠ 0 then .trap (s.trap tAlign info)
  else if (needs.rd && !x.rd) || (needs.w && !x.w) || (needs.atm && !x.atm) then
    .trap (s.trap tProt info)
  else if needs.rd || needs.atm then
    match (touchedGranules off n).find? fun g => x.poison.getLsbD g with
    | some g => .poison (s.trap tPoison (sub 0 (g * 16 + h.toNat)))
    | none => .pass
  else .pass

/-- The physical address of an offset in a handle's region. -/
def Handle.pa (h : Handle) (off : Nat) : Nat := h.frame.toNat * 2 ^ 16 + off

end Sys2Proof.Machine
end

