-- ==== Sys2Proof/Machine/Operands.lean ====
section
/-! DEFINITION. The operand forms: immediates (R292, R293), register names for the interlock (R301), queue
operands of the M, E and U slots (R89, R298 to R300), and the operand bytes of the V slot (R295). -/

namespace Sys2Proof.Machine

/-- A sign-extended immediate. -/
def immS {n : Nat} (i : BitVec n) : Word := i.signExtend 64

/-- A zero-extended immediate. -/
def immZ {n : Nat} (i : BitVec n) : Word := i.setWidth 64

/-- The names of a scalar, handle or predicate register. -/
def rG (r : BitVec 5) : RegName := (0, r.toNat)
def rH (r : BitVec 4) : RegName := (1, r.toNat)
def rK (r : BitVec 3) : RegName := (2, r.toNat)

/-- An operand byte 0b0qqddddd in seven bits: entry d of queue q (R295). -/
def entry7 (o : BitVec 7) : Entry := { queue := o.toNat / 32, offset := o.toNat % 32 }

/-- A matrix operand byte: queue [7:6], offset [5:0] (R298). -/
def entry8 (o : BitVec 8) : Entry := { queue := o.toNat / 64, offset := o.toNat % 64 }

/-- The bytes of a scratchpad range as the issuing berth reads them (R195), as a little-endian number. -/
def State.spadRead (s : State) (addr n : Nat) : Nat := s.startView addr n

/-- The bytes of a source entry (R89), as a little-endian number. -/
def State.entryBytes (s : State) (e : Entry) : Nat :=
  s.spadRead (s.entryAddr e) (s.srcQ e.queue).esize

/-- The scale sideband of a source entry: value i as f32 bits (R127). -/
def State.entryScale (s : State) (e : Entry) (i : Nat) : Nat :=
  bits (s.myCluster.block (s.entryAddr e)).sideband (32 * i) 32

/-- One in every lane, in the lane format (R295). -/
def oneOf (ty : Nat) : Nat :=
  if ty = 0 then 0x3F800000 else if ty = 1 then 0x3F80 else if ty = 2 then 0x3C00 else 1

/-- The lane index i in the lane format, exact in every format (R295). -/
def indexOf (ty i : Nat) : Nat :=
  match wideFmt ty with
  | .float f => (f.ofInt .rn i).1
  | _ => i

/-- An element of an accumulator tile (R32): what the hold found there until it is written. -/
def Core.accElem (k : Core) (tile row col : Nat) : BitVec 32 :=
  let i := 1024 * tile + 32 * row + col
  match Map.get? k.acc i with
  | some x => x
  | none =>
    match k.accHold with
    | some h => Config.freeAcc h i
    | none => 0

/-- A row of an accumulator tile as 32 f32 lanes (R297). -/
def Core.accRow (k : Core) (tile row : Nat) : List Nat :=
  (List.range 32).map fun c => (k.accElem tile row c).toNat

/-- A row of a tile written (R297, R318). -/
def Core.putAccRow (k : Core) (tile row col : Nat) : List Nat → Core
  | [] => k
  | x :: l =>
    ({ k with acc := Map.set k.acc (1024 * tile + 32 * row + col) (.ofNat 32 x) }).putAccRow tile row (col + 1) l

/-- The lanes that an operand byte of the V slot supplies to a stage that works in type ty (R295, R345); 64
lanes of a 16-bit type, 32 of the others. -/
def State.vOperand (s : State) (ty o : Nat) : List Nat :=
  let n := laneCount ty
  let w := laneWidth ty
  if o < 0x80 then
    unpackElems w n (s.spadRead (s.entryAddr ⟨o / 32, o % 32⟩) 128)
  else if o < 0xA0 then
    List.replicate n ((s.srcG (.ofNat 5 o)).toNat % 2 ^ w)
  else if o = 0xA0 then unpackElems w n s.iss.ya.toNat
  else if o = 0xA1 then unpackElems w n s.iss.yb.toNat
  else if o = 0xA2 then unpackElems w n s.iss.yc.toNat
  else if o = 0xA4 then List.replicate n 0
  else if o = 0xA5 then List.replicate n (oneOf ty)
  else if o = 0xA6 then (List.range n).map (indexOf ty)
  else s.myCore.accRow (o / 32 % 2) (o % 32)

/-- The queue entries among the operand bytes. -/
def vEntries (w : VSlot) : List Entry :=
  (w.operands.filter (fun o => decide (o < 0x80))).map fun o => ⟨o / 32, o % 32⟩

end Sys2Proof.Machine
end

