-- ==== Sys2Proof/Machine/Control.lean ====
section
/-! DEFINITION. Control flow, loops, traps, the end of a task, checks of scalars and predicates, and the
absent coprocessor (R332, R333, R335, R339, R355, R368, R378 to R380, R411, R433). -/

namespace Sys2Proof.Machine

/-- Control passes to a bundle: the next PC is the target, and a LEND on the bundle is not acted upon
(R290, R333). The berth's PC already names the next bundle while the slots of a bundle act. -/
def State.jump (s : State) (target : BitVec 11) : State :=
  { s.onRegs (fun x => { x with pc := target }) with iss := { s.iss with taken := true } }

/-- The target of BR and CALL: (PC + SignExtend(off21)) mod 2048 (R332). -/
def branchTarget (pc : BitVec 11) (o : BitVec 21) : BitVec 11 := pc + o.setWidth 11

/-- BR (R333). -/
def semBr (f : SB) : OpSem :=
  .plain (fun s => s.predIs f.p f.n) [rK f.p] [] (fun s => s.jump (branchTarget s.iss.start.pc f.o))
def execBr (f : SB) (s : State) : Host.Outcome State Fault Refusal := runSlot (.br f) (semBr f) s

/-- CALL (R333): also g31 := (PC + 1) mod 2048. -/
def semCall (f : SB) : OpSem :=
  .plain (fun s => s.predIs f.p f.n) [rK f.p] [((0, 31), some 1)]
    (fun s => (s.putG 31 ((s.iss.start.pc + 1).setWidth 64)).jump (branchTarget s.iss.start.pc f.o))
def execCall (f : SB) (s : State) : Host.Outcome State Fault Refusal := runSlot (.call f) (semCall f) s

/-- A branch to the bundle named by a scalar register, upper bits ignored (R332, R411). -/
def registerBranch (f : FBrr) : OpSem :=
  .plain (fun s => s.predIs f.p f.n) [rK f.p, rG f.a] [] (fun s => s.jump ((s.srcG f.a).setWidth 11))

/-- BRR (R333). -/
def semBrr (f : FBrr) : OpSem := registerBranch f
def execBrr (f : FBrr) (s : State) : Host.Outcome State Fault Refusal := runSlot (.brr f) (semBrr f) s

/-- RET (R411). -/
def semRet (f : FBrr) : OpSem := registerBranch f
def execRet (f : FBrr) (s : State) : Host.Outcome State Fault Refusal := runSlot (.ret f) (semRet f) s

/-- The trap LOOP_DEPTH with the depth of the loop stack (R272). -/
def State.loopDepth (s : State) : Trap := s.trap tLoopDepth s.iss.start.loops.length

/-- BRK (R332, R333): control leaves the innermost loop, whose entry is removed. -/
def semBrk (f : FBrk) : OpSem :=
  { OpSem.plain (fun s => s.predIs f.p f.n) [rK f.p] []
      (fun s =>
        match s.iss.start.loops with
        | [] => s
        | e :: l => (s.onRegs fun x => { x with loops := l }).jump (e.stop + 1)) with
    check := fun s => [need (!s.iss.start.loops.isEmpty) s.loopDepth] }
def execBrk (f : FBrk) (s : State) : Host.Outcome State Fault Refusal := runSlot (.brk f) (semBrk f) s

/-- The check of LOOP and LOOPI, decided at issue (R380). -/
def State.loopCheck (s : State) (count : BitVec 32) : Verdict :=
  need (count == 0 || decide (s.iss.start.loops.length < 6)) s.loopDepth

/-- The effect of LOOP and LOOPI at bundle P (R380). -/
def State.enterLoop (s : State) (count : BitVec 32) (len : BitVec 11) : State :=
  let p := s.iss.start.pc
  if count = 0 then s.onRegs fun x => { x with pc := p + len + 1 }
  else
    s.onRegs fun x =>
      { x with loops := { start := p + 1, stop := p + len, remaining := count, index := 0 } :: x.loops }

/-- LOOP (R379, R380): the trip count is g[ra][31:0]. -/
def semLoop (f : FLoop) : OpSem :=
  { OpSem.plain (fun _ => true) [rG f.a] []
      (fun s => s.enterLoop ((s.srcG f.a).setWidth 32) (f.i.setWidth 11)) with
    check := fun s => [s.loopCheck ((s.srcG f.a).setWidth 32)] }
def execLoop (f : FLoop) (s : State) : Host.Outcome State Fault Refusal := runSlot (.loop_ f) (semLoop f) s

/-- LOOPI (R379, R380). -/
def semLoopi (f : FLoopi) : OpSem :=
  { OpSem.plain (fun _ => true) [] [] (fun s => s.enterLoop (f.c.setWidth 32) (f.l.setWidth 11)) with
    check := fun s => [s.loopCheck (f.c.setWidth 32)] }
def execLoopi (f : FLoopi) (s : State) : Host.Outcome State Fault Refusal := runSlot (.loopi f) (semLoopi f) s

/-- LIDX (R378): level 0 is the innermost entry. -/
def semLidx (f : FLidx) : OpSem :=
  { OpSem.plain (fun s => s.predIs f.p 0) [rK f.p] [(rG f.d, some 1)]
      (fun s =>
        match s.iss.start.loops[f.i.toNat]? with
        | some e => s.putG f.d (e.index.setWidth 64)
        | none => s) with
    check := fun s => [need (decide (f.i.toNat < s.iss.start.loops.length)) s.loopDepth] }
def execLidx (f : FLidx) (s : State) : Host.Outcome State Fault Refusal := runSlot (.lidx f) (semLidx f) s

/-- TRAP (R433): raises SOFTWARE with its immediate in TIMM. -/
def semTrap (f : FTrap) : OpSem :=
  { OpSem.plain (fun s => s.predIs f.p 0) [rK f.p] [] (fun s => s) with
    check := fun s => [.trap { s.trap tSoftware 0 with timm := f.i.toNat }] }
def execTrap (f : FTrap) (s : State) : Host.Outcome State Fault Refusal := runSlot (.trap f) (semTrap f) s

/-- A PRIV trap of an operation issued with SUP clear (R263, R272: the opcode field). -/
def State.supOnly (s : State) (opcode : Nat) : Option Trap :=
  if s.me.sup then none else some (s.trap tPriv opcode)

/-- ERET (R267, R355). -/
def semEret : OpSem :=
  { OpSem.plain (fun _ => true) [] []
      (fun s => { s.leaveHandler with iss := { s.iss with taken := true } }) with
    priv := fun s => s.supOnly 0x71 }
def execEret (s : State) : Host.Outcome State Fault Refusal := runSlot .eret semEret s

/-- HALT (R368, R267): the berth drains and its task then retires; issued in supervisor mode as failed, with a TASK_DROPPED event
that carries SR.CAUSE as the last entry of a handler wrote it (R277). -/
def State.halt (s : State) : State :=
  let x := s.me
  let sup := s.iss.sup
  let s := if sup then s.postOf s.iss.core s.iss.berth 0x000D x.entryCause.toNat x.regs.epc.toNat else s
  let s := s.onMe fun b => { b with status := .draining, failed := b.failed || sup }
  { s.later (.taskRetire s.iss.core s.iss.berth) with iss := { s.iss with taken := true } }
def semHalt : OpSem := .plain (fun _ => true) [] [] State.halt
def execHalt (s : State) : Host.Outcome State Fault Refusal := runSlot .halt semHalt s

/-- A mismatch of a check (R238): SDC_CHECK, and the score of the sub-unit of the core rises by 64. -/
def State.checkFails (s : State) (kind info : Nat) : State :=
  (s.raiseError s.iss.core s.iss.berth (s.trap tSdcCheck info) false).raiseScore kind s.iss.core 64

/-- CHK (R335): compares two scalar registers. -/
def semChk (f : FChk) : OpSem :=
  .plain (fun s => s.predIs f.p f.n) [rK f.p, rG f.a, rG f.b] []
    (fun s => if s.srcG f.a = s.srcG f.b then s else s.checkFails 0 0)
def execChk (f : FChk) (s : State) : Host.Outcome State Fault Refusal := runSlot (.chk f) (semChk f) s

/-- CHKP (R335): compares two predicates. -/
def semChkp (f : FChkp) : OpSem :=
  .plain (fun s => s.predIs f.p f.n) [rK f.p, rK f.a, rK f.b] []
    (fun s => if s.srcK f.a = s.srcK f.b then s else s.checkFails 0 2)
def execChkp (f : FChkp) (s : State) : Host.Outcome State Fault Refusal := runSlot (.chkp f) (semChkp f) s

/-- COP (R293, R339): there is no coprocessor; with rep set, its identifier 0 is written. -/
def semCop (f : FCop) : OpSem :=
  .plain (fun _ => true) [] (if f.r = 1 then [(rG f.d, none)] else [])
    (fun s => if f.r = 1 then s.putG f.d 0 else s)
def execCop (f : FCop) (s : State) : Host.Outcome State Fault Refusal := runSlot (.cop f) (semCop f) s

end Sys2Proof.Machine
end

