-- ==== Sys2Proof/Machine/Flags.lean ====
section
/-! DEFINITION. The sticky flags of a berth (R144, R145). -/

namespace Sys2Proof.Machine

/-- Flags OR-ed into SR.FLAGS of a berth, as the operation that raises them writes its result (R145). -/
def State.mergeFlags (s : State) (c b : Nat) (f : BitVec 7) : State :=
  s.onBerth c b fun x => { x with regs := { x.regs with flags := x.regs.flags ||| f } }

end Sys2Proof.Machine
end

