-- ==== Sys2Proof/Machine/Append.lean ====
section
/-! DEFINITION. Appends to operand queues: the reservation of slots at issue (R92, R98), the results on their
way (R94), and the hold of the matrix engine (R32). -/

namespace Sys2Proof.Machine

/-- DESC_INVALID, SUB 3, naming a queue (R272, R468). -/
def State.queueTrap (s : State) (n : Nat) : Trap := s.trap tDescInvalid (sub 3 n)

/-- The checks of a source entry of n bytes: its size, then its distance (R89, R90). -/
def State.sourceCheck (s : State) (e : Entry) (n : Nat) : Verdict :=
  (need ((s.srcQ e.queue).esize == n) (s.queueTrap e.queue)).andThen (s.distance e)

/-- The configuration word that governs an append: the consumer's for a SPLICED queue (R98). -/
def Queue.appendCfg (q : Queue) : Word :=
  match q.splice with
  | .spliced => q.peerCfg
  | _ => q.cfg

/-- The check of the bank of the slot that a counter names: of a SPLICED queue it lies in the consumer's cluster (R48, R98). -/
def State.slotCheck (s : State) (x : Queue) (n : BitVec 16) : Verdict :=
  match x.splice with
  | .spliced => s.bankCheckAt (clusterOf x.peerCore) (cfgSlot x.peerCfg n) (cfgEsize x.peerCfg)
  | _ => s.bankCheck (x.slotAddr n) x.esize

/-- The counter of the next append to a queue (R92, R98). -/
def Queue.nextSlot (q : Queue) : BitVec 16 :=
  match q.splice with
  | .spliced => q.remoteTail
  | _ => q.tail

/-- The check of the banks of the next k slots of a queue (R48). -/
def State.slotsCheck (s : State) (q k : Nat) : Verdict :=
  let x := s.srcQ q
  (List.range k).foldl (fun (v : Verdict) i => v.andThen (s.slotCheck x (x.nextSlot + .ofNat 16 i))) Verdict.pass

/-- The check of k appends of entries of n bytes to a queue (R48, R89, R99). -/
def State.appendsCheck (s : State) (q n k : Nat) : Verdict :=
  let x := s.srcQ q
  (need (x.configured && x.splice != .fed && !x.subscribed && x.esize == n) (s.queueTrap q)).andThen (s.slotsCheck q k)

/-- The check of the bank of the entry that a queue has pending, which a PACK or SPMX goes on writing (R48). -/
def State.pendingCheck (s : State) (q : Nat) : Verdict :=
  s.slotCheck (s.srcQ q) (s.srcQ q).pendingAt

/-- The check of an append of an entry of n bytes to a queue. -/
def State.appendCheck (s : State) (q n : Nat) : Verdict := s.appendsCheck q n 1

/-- The registers with the tail of a queue advanced by one (R92); of a SPLICED queue the remote tail (R98). -/
def Queue.advance (q : Queue) : Queue :=
  match q.splice with
  | .spliced => { q with remoteTail := q.remoteTail + 1 }
  | _ => { q with tail := q.tail + 1 }

/-- The issuing berth's queue as it stands now, after the appends of earlier slots of the bundle (R92). -/
def State.liveQ (s : State) (n : Nat) : Queue := s.me.regs.queue n

/-- The issuing berth's cluster changed by a function. -/
def State.onMyCluster (s : State) (f : Cluster → Cluster) : State := s.setCluster s.clNum (f s.myCluster)

/-- One slot reserved at the tail of a queue of the issuing berth; of a queue of its own the slot's presence
bit is cleared (R92), by the even member of a redundant pair (R249). -/
def State.reserve (s : State) (n : Nat) : State :=
  let q := s.liveQ n
  let s := s.onRegs fun x => x.putQ n q.advance
  match q.splice with
  | .spliced => s
  | _ =>
    if s.odd then s
    else s.onMyCluster fun k => k.setBlock (q.slotAddr q.tail) { k.block (q.slotAddr q.tail) with present := false }

/-- The bytes that an append of the issuing berth will write at an address are later than its held STS writes to them (R195). -/
def State.overwrite (s : State) (addr n : Nat) : State := s.onMe fun b => { b with held := trimHeld b.held addr n }

/-- A result on its way, due to be written. -/
def State.sendResult (s : State) (w : Writeback) : State :=
  ({ s.bump with writebacks := Map.set s.writebacks s.stamp w }).later (.resultWriteback s.stamp)

/-- A result of the issuing berth that goes to no entry: its flags are merged when it is written (R145). -/
def State.flagsOnly (s : State) (flags : BitVec 7) : Writeback :=
  { core := s.iss.core, berth := s.iss.berth, queue := 0, counter := 0, addr := 0, esize := 0, first := 0,
    count := 0, bytes := 0, sideband := 0, setsPresence := false, unit := 0, flags := flags, accRow := none }

/-- One entry appended by the issuing berth: its slot is reserved, and its bytes are on their way; to a SPLICED
queue they are held until commit (R92, R98, R241). -/
def State.appendEntry (s : State) (n bytes sideband unit : Nat) (flags : BitVec 7) : State :=
  let q := s.liveQ n
  match q.splice with
  | .spliced =>
    ((s.reserve n).onMe fun b =>
        { b with held := b.held ++ [.splicedAppend n q.remoteTail.toNat bytes sideband unit] }).sendResult
      (s.flagsOnly flags)
  | _ =>
    ((s.reserve n).overwrite (q.slotAddr q.tail) q.esize).sendResult
      { s.flagsOnly flags with
        queue := n, counter := q.tail, addr := q.slotAddr q.tail, esize := q.esize, count := q.esize,
        bytes := bytes, sideband := sideband, setsPresence := true, unit := unit }

/-- 1.0 in every value of a sideband (R127). -/
def onesSideband : Nat := packElems 32 (List.replicate 32 0x3F800000)

/-- A sideband with its values from value i on replaced (R399, R423). -/
def mergeSideband (old new i : Nat) : Nat := old % 2 ^ (32 * i) + new / 2 ^ (32 * i) * 2 ^ (32 * i)

/-- The held items with part of a held append to a SPLICED queue written; with start the append is new. -/
def heldPart (held : List Held) (n c first count bytes sideband : Nat) (start : Bool) : List Held :=
  if start then held ++ [.splicedAppend n c bytes sideband 1]
  else held.map fun (h : Held) => match h with
    | .splicedAppend m k old sb u =>
      if m = n ∧ k = c then
        .splicedAppend m k (setBits old (8 * first) (8 * count) bytes) (mergeSideband sb sideband (first / count)) u
      else h
    | _ => h

/-- Part of an entry written by a PACK or SPMX (R399, R423): count bytes from the first, and the sideband values from
value first / count on. With start it reserves the slot; with done the entry becomes present; otherwise the entry stays
pending. -/
def State.appendPart (s : State) (n first count bytes sideband : Nat) (start done : Bool) (flags : BitVec 7) : State :=
  let q := s.liveQ n
  let c : BitVec 16 := if start then q.nextSlot else q.pendingAt
  let s := if start then s.reserve n else s
  let s := s.onRegs fun x => x.putQ n { x.queue n with pendingAt := c }
  match q.splice with
  | .spliced =>
    (s.onMe fun b => { b with
      held := heldPart b.held n c.toNat first count bytes sideband start }).sendResult (s.flagsOnly flags)
  | _ =>
    (s.overwrite (q.slotAddr c + first) count).sendResult
      { s.flagsOnly flags with
        queue := n, counter := c, addr := q.slotAddr c, esize := q.esize, first := first, count := count,
        bytes := bytes, sideband := sideband, setsPresence := done, unit := 1 }

/-! ## The hold of the matrix engine (R32) -/

/-- A matrix operation or accumulator-row access waits while another berth holds the engine (R32), and while the berth's own hold,
which its PP or YLD bundle ended, has operations to complete: it then takes a new hold. DESIGN CHOICE (log 83). -/
def State.engineFree (s : State) : Verdict :=
  await (s.myCore.hold == none || (s.myCore.hold == some s.iss.berth && !s.myCore.holdEnding))

/-- The issuing berth takes hold of the engine if it does not hold it: acc0 and acc1 are then in an unspecified
state, a free value of each hold (R32, log 6). -/
def State.takeEngine (s : State) : State :=
  if s.myCore.hold = some s.iss.berth then s
  else
    (s.bump.onMyCore fun k =>
      { k with hold := some s.iss.berth, holdEnding := false, lastHalf := none, acc := [],
               accHold := some s.stamp }).onMe
      fun b => { b with accWritten0 := 0, accWritten1 := 0 }

/-- The hold of a core's engine ends once its PP or YLD bundle has issued and its operations are complete: those queued, and the
accumulator rows on their way (R32, R297). -/
def State.endHold (s : State) (c : Nat) : State :=
  let k := s.core c
  match k.hold with
  | some b =>
    if k.holdEnding && ((k.half0 ++ k.half1).all fun m => m.berth != b) &&
        s.writebacks.all fun e => !(e.2.core == c && e.2.berth == b && e.2.accRow.isSome) then
      s.setCore c { k with hold := none, holdEnding := false, lastHalf := none }
    else s
  | none => s

/-- The operations queued at a half-array: 0 is H0, else H1 (R130). -/
def Core.halfQ (k : Core) (n : Nat) : List MatrixOp := if n = 0 then k.half0 else k.half1

def Core.setHalfQ (k : Core) (n : Nat) (l : List MatrixOp) : Core :=
  if n = 0 then { k with half0 := l } else { k with half1 := l }

end Sys2Proof.Machine
end

