-- ==== Sys2Proof/Machine/Domain.lean ====
section
/-! DEFINITION. Hierarchies and domains of launches (R14, R16, R42 to R44), and the notification of capacity changes'
audience. -/

namespace Sys2Proof.Machine

/-- The kinds of domain (R43): 0 berth, 1 core, 2 pair, 3 cluster, 4 die, 5 package. The number of units of a kind
within a parent kind (R42); 0 where the kind is not smaller. A berth level may stand at level 0, where it restricts the launch to
those berths of every core of the package. DESIGN CHOICE (log 79). -/
def unitsWithin (kind parent : Nat) : Nat :=
  match kind, parent with
  | 5, 6 => 1
  | 4, 5 => 4
  | 4, 6 => 4
  | 3, 4 => 24
  | 3, 5 => 96
  | 3, 6 => 96
  | 2, 3 => 8
  | 2, 4 => 192
  | 2, 5 => 768
  | 2, 6 => 768
  | 1, 2 => 2
  | 1, 3 => 16
  | 1, 4 => 384
  | 1, 5 => 1536
  | 1, 6 => 1536
  | 0, 0 => 0
  | 0, _ => 8
  | _, _ => 0

/-- Cluster r of a die, in ascending order of quay number (R14). -/
def dieCluster (die r : Nat) : Nat := 12 * (4 * (die / 2) + r / 6) + 6 * (die % 2) + r % 6

/-- The global index of unit r of a kind within unit p of a parent kind (R42). Parent kind 6 stands for the level-0
numbering. -/
def childUnit (kind parent p r : Nat) : Nat :=
  match kind, parent with
  | 3, 4 => dieCluster p r
  | 2, 3 => 8 * p + r
  | 2, 4 => 8 * dieCluster p (r / 8) + r % 8
  | 1, 2 => 2 * p + r
  | 1, 3 => 16 * p + r
  | 1, 4 => 16 * dieCluster p (r / 16) + r % 16
  | _, _ => r

/-- The cores of a unit of a kind. -/
def unitCores (kind i : Nat) : List Nat :=
  match kind with
  | 1 => [i]
  | 2 => [2 * i, 2 * i + 1]
  | 3 => (List.range 16).map (16 * i + ·)
  | 4 => ((List.range 24).map fun r => (List.range 16).map (16 * dieCluster i r + ·)).flatten
  | _ => List.range 1536

/-- The units of the levels of a launch from a list of parent units of a kind. A level of kind core of a redundant
launch names pairs (R44), and directly under a level of pairs each pair itself, with the one index 0. DESIGN CHOICE (log 79). A
berth level restricts berths and leaves the units. -/
def levelUnits (redundant : Bool) (parent : Nat) (ps : List Nat) : List Level → Nat × List Nat
  | [] => (parent, ps)
  | l :: ls =>
    if l.kind = 0 then levelUnits redundant parent ps ls
    else
      let kind := if redundant && l.kind == 1 then 2 else l.kind
      let us := (ps.map fun p => (List.range l.count).map fun i =>
        if kind = parent then p else childUnit kind parent p (l.first + i)).flatten
      levelUnits redundant kind us ls

/-- The cores of the domains of the first n levels of a launch, ascending as the levels name them. -/
def Launch.coresTo (l : Launch) (n : Nat) : List Nat :=
  let (k, us) := levelUnits l.redundant 6 [0] (l.levels.take n)
  (us.map (unitCores k)).flatten

/-- The cores of a launch's domain, in service or not. -/
def Launch.cores (l : Launch) : List Nat := l.coresTo l.levels.length

/-- The largest scope that the launch's tasks may name (R44). -/
def Launch.maxScope (l : Launch) : Nat := (l.levels.head?.map Level.mscope).getD 0

/-- The berths that a launch may use (R42). -/
def Launch.mayUse (l : Launch) (b : Nat) : Bool :=
  (l.levels.filter fun x => x.kind == 0).all fun x => decide (x.first ≤ b) && decide (b < x.first + x.count)

/-- The other core of a pair (R16). -/
def pairCore (c : Nat) : Nat := c / 2 * 2 + 1 - c % 2

/-- A core of the launch's domain: a retired core belongs to none, nor, in a redundant launch, does its partner (R82,
R250). -/
def State.inDomain (s : State) (l : Launch) (c : Nat) : Bool :=
  l.cores.contains c && (s.core c).service != .retired &&
    (!l.redundant || (s.core (pairCore c)).service != .retired)

/-- The lowest core of the launch's domain (R45). -/
def State.lowestCore (s : State) (l : Launch) : Nat := (l.cores.filter (s.inDomain l)).foldl min 1535

/-- A cluster with a core in the domain. -/
def State.clusterInDomain (s : State) (l : Launch) (cl : Nat) : Bool :=
  decide (cl < 96) && (List.range 16).any fun i => s.inDomain l (16 * cl + i)

/-- The launch of the issuing berth. -/
def State.myLaunch (s : State) : Option Launch := s.launch s.mySlot

/-- The largest scope that the issuing berth may name (R44). -/
def State.myScope (s : State) : Nat := (s.myLaunch.map Launch.maxScope).getD 0

/-- The check of a scope (R44): PROT, SUB 1, beyond the launch's. -/
def State.scopeCheck (s : State) (named : Nat) : Verdict :=
  need (decide (named ≤ s.myScope)) (s.trap tProt (sub 1 (named + 8 * s.myScope)))

/-- PROT, SUB 2: a target outside the domain or the package (R272). -/
def State.targetTrap (s : State) (t : Nat) : Trap := s.trap tProt (sub 2 (t % 2 ^ 16))

/-- The check that a cluster lies in the issuing berth's domain. -/
def State.clusterCheck (s : State) (cl : Nat) : Verdict :=
  need ((s.myLaunch.map fun l => s.clusterInDomain l cl).getD false) (s.targetTrap cl)

/-- The check that a core lies in the issuing berth's domain. -/
def State.coreCheck (s : State) (c : Nat) : Verdict :=
  need ((s.myLaunch.map fun l => s.inDomain l c).getD false) (s.targetTrap c)

end Sys2Proof.Machine
end

