-- ==== Sys2Proof/Machine/Memory.lean ====
section
/-! DEFINITION. Loads, stores, handles and sync words in the scalar slots (R159, R369, R373, R375, R425, R427,
R432, R438). -/

namespace Sys2Proof.Machine

/-- Zero- or sign-extension of an n-byte value to 64 bits. -/
def extendBytes (sgn : Bool) (n v : Nat) : Word :=
  if sgn then .ofInt 64 (signed v (8 * n)) else .ofNat 64 (v % 2 ^ (8 * n))

/-- An item held by the open segment of the issuing berth (R241). -/
def State.hold (s : State) (h : Held) : State := s.onMe fun b => { b with held := b.held ++ [h] }

/-! ## Scratchpad -/

/-- The address of LDS and STS: (g[ra] + off * n) mod 2^22 (R375, R427). -/
def State.ldsAddr (s : State) (a : BitVec 5) (o : BitVec 9) (z : BitVec 2) : Nat :=
  ((s.srcG a).toNat + o.toNat * 2 ^ z.toNat) % spadSize

/-- The check that the block of a scratchpad address carries no poison mark (R163, R375). -/
def State.markCheck (s : State) (addr : Nat) : Verdict :=
  if (s.myCluster.block addr).mark then .poison (s.trap tPoison (sub 1 addr)) else .pass

/-- LDS (R375). -/
def semLds (f : FLds) : OpSem :=
  { OpSem.plain (fun s => s.predIs f.p 0) [rK f.p, rG f.a] [(rG f.d, some 4)]
      (fun s => (s.putG f.d (extendBytes (f.s == 1) (2 ^ f.z.toNat)
        (s.startView (s.ldsAddr f.a f.o f.z) (2 ^ f.z.toNat)))).touchSpad s.iss.core s.iss.berth pQread false
          (s.ldsAddr f.a f.o f.z) (2 ^ f.z.toNat)) with
    check := fun s =>
      let a := s.ldsAddr f.a f.o f.z
      let n := 2 ^ f.z.toNat
      [s.alignCheck a n, s.bankCheck a n, await (s.spadQuiet a n), s.markCheck a] }
def execLds (f : FLds) (s : State) : Host.Outcome State Fault Refusal := runSlot (.lds f) (semLds f) s

/-- STS (R427), held until commit (R241). -/
def semSts (f : FSts) : OpSem :=
  { OpSem.plain (fun s => s.predIs f.p 0) [rK f.p, rG f.a, rG f.d] []
      (fun s => s.hold (.sts (s.ldsAddr f.a f.o f.z) (2 ^ f.z.toNat)
        ((s.srcG f.d).toNat % 2 ^ (8 * 2 ^ f.z.toNat)))) with
    check := fun s =>
      let a := s.ldsAddr f.a f.o f.z
      let n := 2 ^ f.z.toNat
      [s.alignCheck a n, s.bankCheck a n] }
def execSts (f : FSts) (s : State) : Host.Outcome State Fault Refusal := runSlot (.sts f) (semSts f) s

/-- The checks of a sync word's address (R113). -/
def State.syncCheck (s : State) (a : Nat) : Verdict := (s.alignCheck a 16).andThen (s.bankCheck a 16)

/-- The sync-word address in a scalar register: bits [21:0] (R432). -/
def State.syncAddr (s : State) (a : BitVec 5) : Nat := (s.srcG a).toNat % spadSize

/-- SWSET (R113, R432), held until commit. -/
def semSwset (f : FAB) : OpSem :=
  { OpSem.plain (fun _ => true) [rG f.a, rG f.b] []
      (fun s => s.hold (.swset (s.syncAddr f.a) ((s.srcG f.b).toNat % 2 ^ 32))) with
    check := fun s => [s.syncCheck (s.syncAddr f.a)] }
def execSwset (f : FAB) (s : State) : Host.Outcome State Fault Refusal := runSlot (.swset f) (semSwset f) s

/-- SWADD (R113, R432), held until commit. -/
def semSwadd (f : FAB) : OpSem :=
  { OpSem.plain (fun _ => true) [rG f.a, rG f.b] []
      (fun s => s.hold (.swadd (s.syncAddr f.a) ((s.srcG f.b).toNat % 2 ^ 32))) with
    check := fun s => [s.syncCheck (s.syncAddr f.a)] }
def execSwadd (f : FAB) (s : State) : Host.Outcome State Fault Refusal := runSlot (.swadd f) (semSwadd f) s

/-! ## Handles -/

/-- XLAT (R159, R438): the handle is loaded and not ready while its walk is pending. DESIGN CHOICE (log 13). -/
def semXlat (f : FXlat) : OpSem :=
  .plain (fun s => s.predIs f.p f.n) [rK f.p, rG f.a] [(rH f.h, some 12)]
    (fun s =>
      let va := (s.srcG f.a).toNat
      let w : PendingWalk := { core := s.iss.core, berth := s.iss.berth, handle := f.h.toNat, va := va }
      ({ s.putH f.h { Handle.zero with vpn := .ofNat 40 (va / 2 ^ 16), loaded := true, valid := true } with
          walks := (s.walks.filter fun (x : PendingWalk) =>
            !(x.core == w.core && x.berth == w.berth && x.handle == w.handle)) ++ [w] }).later
        (.xlatWalkComplete s.iss.core s.iss.berth f.h.toNat))
def execXlat (f : FXlat) (s : State) : Host.Outcome State Fault Refusal := runSlot (.xlat f) (semXlat f) s

/-- HGEN (R369): GEN of a loaded and ready handle. -/
def semHgen (f : FHgen) : OpSem :=
  { OpSem.plain (fun s => s.predIs f.p f.n) [rK f.p, rH f.h] [(rG f.d, none)]
      (fun s => s.putG f.d ((s.srcH f.h).gen.setWidth 64)) with
    check := fun s =>
      [need (s.srcH f.h).loaded (s.trap tHandleInvalid f.h.toNat), await (s.srcH f.h).ready] }
def execHgen (f : FHgen) (s : State) : Host.Outcome State Fault Refusal := runSlot (.hgen f) (semHgen f) s

/-- The bit that HTST tests (R369). -/
def Handle.test (h : Handle) (sel : Nat) : Bool :=
  match sel with
  | 0 => h.ready
  | 1 => h.valid
  | 2 => h.ready && h.fault != 0
  | _ => h.loaded

/-- HTST (R369): never waits and never traps on the handle. -/
def semHtst (f : FHtst) : OpSem :=
  .plain (fun s => s.predIs f.p f.n) [rK f.p, rH f.h] [(rK f.k, none)]
    (fun s => s.putK f.k ((s.srcH f.h).test f.s.toNat))
def execHtst (f : FHtst) (s : State) : Host.Outcome State Fault Refusal := runSlot (.htst f) (semHtst f) s

/-! ## CORE accesses -/

/-- A CORE access to an MS page waits until the berth's previous one has been performed (R166). -/
def State.msReady (s : State) (h : BitVec 4) : Verdict :=
  await (!(s.srcH h).ms || s.accesses.all fun e =>
    !(e.2.core == s.iss.core && e.2.berth == s.iss.berth && e.2.ms && !e.2.done))

/-- The access of the issuing berth through a handle at an offset, not yet performed. -/
def State.newAccess (s : State) (h : BitVec 4) (off n kind : Nat) : Access :=
  { core := s.iss.core, berth := s.iss.berth, slot := s.iss.slot, launch := s.mySlot, kind := kind, fn := 0, handle := h.toNat,
    pa := (s.srcH h).pa off, size := n, data := 0, cmp := 0, signed := false, dest := 0, sc := false, scope := 0,
    ticket := none, ms := (s.srcH h).ms, done := false, value := 0, marked := false, flags := 0, resends := 0, sent := 0,
    mark := false, remote := false }

/-- An access sent on its way; its performance is due. -/
def State.sendAccess (s : State) (a : Access) : State :=
  ({ s.bump with accesses := Map.set s.accesses s.stamp a }).later (.accessPerform s.stamp)

/-- The issuing berth's register d awaits the reply of the next access (R301). -/
def State.awaitReply (s : State) (d : BitVec 5) : State :=
  s.onMe fun b => { b with outstanding := b.outstanding ++ [{ file := 0, num := d.toNat, req := s.stamp }] }

/-- LD (R373). -/
def semLd (f : FLd) : OpSem :=
  { OpSem.plain (fun s => s.predIs f.p f.n) [rK f.p, rG f.a, rH f.h] [(rG f.d, none)]
      (fun s => (s.awaitReply f.d).sendAccess
        { s.newAccess f.h (s.srcG f.a).toNat (2 ^ f.z.toNat) 0 with
            signed := f.x == 1, dest := f.d.toNat }) with
    check := fun s =>
      [s.accessCheck f.h (s.srcG f.a).toNat (2 ^ f.z.toNat) ⟨true, false, false⟩, s.msReady f.h] }
def execLd (f : FLd) (s : State) : Host.Outcome State Fault Refusal := runSlot (.ld f) (semLd f) s

/-- ST (R425), held until commit. -/
def semSt (f : FSt) : OpSem :=
  { OpSem.plain (fun s => s.predIs f.p f.n) [rK f.p, rG f.a, rH f.h, rG f.d] []
      (fun s => s.hold (.store ((s.srcH f.h).pa (s.srcG f.a).toNat) (2 ^ f.z.toNat)
        ((s.srcG f.d).toNat % 2 ^ (8 * 2 ^ f.z.toNat)) (s.srcH f.h).ms)) with
    check := fun s => [s.accessCheck f.h (s.srcG f.a).toNat (2 ^ f.z.toNat) ⟨false, true, false⟩] }
def execSt (f : FSt) (s : State) : Host.Outcome State Fault Refusal := runSlot (.st f) (semSt f) s

end Sys2Proof.Machine
end

