-- ==== Sys2Proof/Machine/Units.lean ====
section
/-! DEFINITION. What several operations do to the units of a cluster and of the device: revocation (R161), bank
hand-over (R48, R49), modes (R147), buffer rings (R107 to R110), sync words (R111 to R113), engine records (R271)
and the checks of staging blocks. -/

namespace Sys2Proof.Machine

/-! ## Revocation (R161) -/

/-- The page of an address under a walk: its first region (VA / 2^16) and the number of regions. -/
def pageRegions (w : Walk) (va : Nat) : Nat × Nat :=
  if w.large then (va / 2 ^ 25 * 2 ^ 9, 2 ^ 9) else (va / 2 ^ 16, 1)

/-- VALID cleared in a berth's registers for handles in a page (step 3 of R161). -/
def Regs.dropHandles (x : Regs) (first n : Nat) : Regs :=
  { x with h := x.h.map fun (h : Handle) =>
      if first ≤ h.vpn.toNat ∧ h.vpn.toNat < first + n then { h with valid := false } else h }

def Berth.dropHandles (b : Berth) (first n : Nat) : Berth :=
  if b.status = .free then b
  else
    { b with regs := b.regs.dropHandles first n, ckpt := b.ckpt.map fun x => x.dropHandles first n }

/-- Revocation of the page of an address (R161): GEN is incremented in the leaf and VALID cleared in the handles of
every resident berth. Engine transfers stop at their next check, which compares GEN (R162). A page with no valid
leaf is left unchanged (R280, R370). -/
def State.revoke (s : State) (va : Nat) : State :=
  let w := s.walk va
  if !w.hasLeaf then s
  else
    let (first, n) := pageRegions w va
    { s with
      mem := s.mem.write w.leafAt 8 (setBits w.leaf 52 12 ((w.gen + 1) % 2 ^ 12))
      cores := s.cores.map fun (e : Nat × Core) =>
        (e.1, { e.2 with berths := e.2.berths.map fun b => b.dropHandles first n }) }

/-- A command is within a granule of a page, given as its first 64 KiB region and their number, under a generation that passes a
test. -/
def Command.within (k : Command) (first n : Nat) (f : Nat → Bool) : Bool :=
  k.begun.any fun e => decide (first ≤ e.1 / 32) && decide (e.1 / 32 < first + n) && f e.2.gen

/-- No engine command is within a granule of the page of an address (R161, R162). -/
def State.pageQuiet (s : State) (va : Nat) : Bool :=
  let (first, n) := pageRegions (s.walk va) va
  s.commands.all fun e => !(e.2.within first n fun _ => true)

/-- The transfers that held a translation of a revoked page have stopped: no engine is within a granule of it under another
generation than the leaf's (step 4 of R161); an ACCH is within its granule until its reply. -/
def State.revokedQuiet (s : State) (va : Nat) : Bool :=
  let w := s.walk va
  let (first, n) := pageRegions w va
  s.commands.all fun e => !(e.2.within first n fun g => g != w.gen)

/-! ## Banks (R48, R49, R147) -/

/-- The banks named by bits [31:0] of a register, ascending. -/
def banksOf (w : Word) : List Nat := (List.range 32).filter fun n => w.getLsbD n

/-- A bank of a cluster changed. -/
def Cluster.onBank (k : Cluster) (n : Nat) (f : Bank → Bank) : Cluster :=
  { k with banks := vset k.banks n (f (k.bank n)) }

/-- A bank passed to the oldest launch pending on it, or to none (R49). -/
def Bank.release (b : Bank) : Bank := { b with owner := b.pending.head?, pending := b.pending.drop 1 }

/-- A bank cleared to zero, with every presence bit and mark clear (R147). -/
def Cluster.clearBank (k : Cluster) (n : Nat) : Cluster :=
  { k with
    spad := k.spad.filter fun (e : Host.Cell) => e.1 / bankSize != n
    blocks := k.blocks.map fun (e : Nat × Block) =>
      if e.1 / 1024 = n then (e.1, { e.2 with present := false, mark := false, sideband := 0 }) else e }

/-- The switch of a bank to a mode (R147). L1 copies of a way that leaves cache mode are dropped; L1 writes through, so
that no line is dirty (R148). -/
def Cluster.switchBank (k : Cluster) (n : Nat) (m : BankMode) : Cluster :=
  if (k.bank n).mode = m then k
  else
    let k := k.clearBank n
    let k := { k with l1 := k.l1.filter fun (e : Nat × L1Line) => e.2.bank != n }
    k.onBank n fun b => { b with mode := m, fifo := [] }

/-! ## Buffer rings (R107 to R110) -/

/-- The fields of SR.RINGCFG (R107). -/
def ringNo (w : Word) : Nat := bits w.toNat 58 6
def ringEnable (w : Word) : Bool := w.getLsbD 57
def ringCount (w : Word) : Nat := bits w.toNat 48 7
def ringLog (w : Word) : Nat := bits w.toNat 44 4
def ringBaseOf (w : Word) : Nat := bits w.toNat 0 22

/-- A ring of a cluster that is enabled: one that belongs to a launch (R107). -/
def Cluster.ring (k : Cluster) (n : Nat) : Option Ring := (Map.get? k.rings n).filter fun r => r.owner.isSome

def Ring.size (r : Ring) : Nat := 2 ^ ringLog r.cfg
def Ring.count (r : Ring) : Nat := ringCount r.cfg
def Ring.addr (r : Ring) (i : Nat) : Nat := ringBaseOf r.cfg + i * r.size
def Ring.state (r : Ring) (i : Nat) : BufferState := r.states.getD i .empty
def Ring.setState (r : Ring) (i : Nat) (x : BufferState) : Ring := { r with states := r.states.set i x }

/-- The buffer that starts at an address, if one does. -/
def Ring.bufferAt (r : Ring) (a : Nat) : Option Nat :=
  (List.range r.count).find? fun i => r.addr i == a

/-- DESC_INVALID, SUB 5, naming a ring (R272). -/
def State.ringTrap (s : State) (n : Nat) : Trap := s.trap tDescInvalid (sub 5 n)

/-- The checks of a use of a ring: of another launch BANK_OWNER with the bank of buffer 0, disabled DESC_INVALID
(R107, R321); in a bank that is not the launch's scratchpad BANK_OWNER (R48, R146). -/
def State.ringCheck (s : State) (n : Nat) : Verdict :=
  match s.myCluster.ring n with
  | none => .trap (s.ringTrap n)
  | some r =>
    (need (r.owner == some s.mySlot) (s.trap tBankOwner (ringBaseOf r.cfg / bankSize))).andThen
      (s.bankCheck (ringBaseOf r.cfg) (r.count * r.size))

/-- RELB on a ring (R110): the ring afterwards, none where the release does not fit. -/
def Ring.release (r : Ring) (addr : Nat) (consumer : Bool) : Option Ring :=
  match r.bufferAt addr with
  | none => none
  | some i =>
    if consumer then (if r.state i = .draining then some (r.setState i .empty) else none)
    else (if r.state i = .filling then some { r.setState i .full with times := Map.erase r.times i } else none)

/-- The ring as it will stand after the held releases of a berth (R409). -/
def heldRing (held : List Held) (n : Nat) (r : Ring) : Ring :=
  held.foldl (fun (r : Ring) h => match h with
    | .relb m a c => if m = n then (r.release a c).getD r else r
    | _ => r) r

/-- A ring of a cluster replaced. -/
def State.setRing (s : State) (cl n : Nat) (r : Ring) : State :=
  s.setCluster cl { s.cluster cl with rings := Map.set (s.cluster cl).rings n r }

/-! ## Sync words (R111 to R113) -/

/-- The scratchpad of a cluster changed by a function. -/
def State.onSpad (s : State) (cl : Nat) (f : Memory → Memory) : State :=
  s.setCluster cl { s.cluster cl with spad := f (s.cluster cl).spad }

/-! ## Engine records (R271) -/

/-- LOST set in an engine record. -/
def lostRecord (w : Word) : Word := w ||| (1 <<< 62)

/-- An engine record (R271). -/
def engineWord (code op bytes : Nat) : Word := .ofNat 64 (2 ^ 63 + code * 2 ^ 48 + op * 2 ^ 43 + bytes % 2 ^ 40)

/-- An engine record for a resident berth: written at once in user mode, held in supervisor mode (R271). -/
def Berth.engineRecord (b : Berth) (w : Word) : Berth :=
  if b.sup then
    match b.heldEngine with
    | none => { b with heldEngine := some w }
    | some h => { b with heldEngine := some (lostRecord h) }
  else
    { b with regs := { b.regs with einfo := if b.einfoUnread then lostRecord w else w }, einfoUnread := true }

/-- An engine record for the task that issued a command: at its berth, or kept with its context slot (R271). -/
def State.engineRecord (s : State) (c b task : Nat) (w : Word) : State :=
  if ((s.berth c b).task.map Task.uid) = some task then s.onBerth c b fun x => x.engineRecord w
  else
    s.setCore c { s.core c with waiting := (s.core c).waiting.map fun (x : Candidate) =>
      if x.evicted && x.task.uid == task then
        { x with heldEngine := some (if x.heldEngine.isSome then lostRecord w else w) }
      else x }

/-- Flags of a command merged when it completes: at its berth, or kept with its context slot (R145). -/
def State.engineFlags (s : State) (c b task : Nat) (f : BitVec 7) : State :=
  if ((s.berth c b).task.map Task.uid) = some task then s.mergeFlags c b f
  else
    s.setCore c { s.core c with waiting := (s.core c).waiting.map fun (x : Candidate) =>
      if x.evicted && x.task.uid == task then { x with lateFlags := x.lateFlags ||| f } else x }

/-! ## What FENCE and others wait for (R196) -/

/-- A normal or forced addend of a berth whose reply, for FENCE, is outstanding (R189). -/
def Msg.accOf (m : Msg) (c b : Nat) : Bool :=
  match m with
  | .acc a => a.core == c && a.berth == b
  | _ => false

/-- The normal addends of a berth whose reply has not arrived (R189, R196). -/
def Msg.accWaits (m : Msg) (c b : Nat) : Bool :=
  match m with
  | .acc a => a.core == c && a.berth == b && a.cmd.isSome && !a.forced && !a.replied
  | _ => false

/-- A command of the task that is on a berth; those of a task evicted from the berth go on without it (R53). -/
def State.owns (s : State) (c b : Nat) (k : Command) : Bool :=
  k.core == c && k.berth == b && (s.berth c b).task.map Task.uid == some k.task

/-- An entry that a berth appended to a SPLICED queue is on its way to the consumer's bank (R98, R189). -/
def State.splicedUnderWay (s : State) (c b : Nat) (m : Msg) : Bool :=
  match m with
  | .data dc db dq .. =>
    let k := (s.berth dc db).regs.queue dq
    k.peerCore == c && k.peerBerth == b
  | _ => false

/-- Whether an access of a path that a berth issued is not yet performed (R189, R196). -/
def State.pathBusy (s : State) (c b p : Nat) : Bool :=
  (p == pCore && s.accesses.any fun e => e.2.core == c && e.2.berth == b && !e.2.done) ||
  (p == pQwrite && ((s.writebacks.any fun e => e.2.core == c && e.2.berth == b) ||
    s.messages.any fun e => s.splicedUnderWay c b e.2)) ||
  (s.commands.any fun e => s.owns c b e.2 && e.2.path == p && !e.2.held) ||
  (p == pSteve && (s.berth c b).subs.any fun e => !e.2.stopped && decide (e.2.landed < e.2.count)) ||
  (p == pAccum && s.messages.any fun e => e.2.accWaits c b)

/-- Every access of the paths in a mask that a berth issued is performed. -/
def State.pathsQuiet (s : State) (c b mask : Nat) : Bool :=
  (List.range 8).all fun p => !(bit mask p) || !(s.pathBusy c b p)

/-- The clocks of the paths in a mask joined (step 2 of R196). -/
def State.joinClocks (s : State) (c b mask : Nat) : State :=
  let ps := (List.range 8).filter fun p => bit mask p
  let t := ps.foldl (fun t p => max t (s.ptsOf c b p)) 0
  ps.foldl (fun (s : State) p => s.raisePts c b p t) s

/-! ## Staging blocks -/

/-- DESC_INVALID, SUB 4, naming a staging register and bit (R272, R468). -/
def State.stagingTrap (s : State) (z bitNo : Nat) : Trap := s.trap tDescInvalid (sub 4 (bitNo * 2 ^ 5 + z))

/-- The lowest set bit of a number below 2^64. -/
def lowestBit (x : Nat) : Nat := ((List.range 64).find? fun i => bit x i).getD 0

/-- The check that bits [lo+len-1 : lo] of a staging register are zero. -/
def State.zeroField (s : State) (z lo len : Nat) : Verdict :=
  let x := bits (s.srcZ z).toNat lo len
  need (x == 0) (s.stagingTrap z (lo + lowestBit x))

/-- The check of a staging block's length: it may not extend beyond z31 (R299); the record names z[b], bit 0. DESIGN CHOICE
(log 92). -/
def State.blockFits (s : State) (b n : Nat) : Verdict := need (decide (b + n ≤ 32)) (s.stagingTrap b 0)

/-- DESC_INVALID, SUB 6, naming a descriptor, a reason, and the queue it was reached through (R272). -/
def State.descTrap (s : State) (d reason : Nat) (q : Option Nat) : Trap :=
  s.trap tDescInvalid (sub 6 (reason * 2 ^ 12 + (match q with
    | some n => 2 ^ 8 + n * 2 ^ 9
    | none => 0) + d))

/-- The sync word of a command: select n names g(16 + n) (R112). -/
def State.syncWord (s : State) (w : BitVec 4) : Option Nat :=
  if w = 0 then none else some ((s.srcG (.ofNat 5 (16 + w.toNat))).toNat % spadSize)

/-- The address of entry k of the residual table of a berth for a launch; the members of a redundant pair share the even
member's (R45, R203, R248). -/
def Launch.resEntry (l : Launch) (c b k : Nat) : Nat :=
  let j := if l.redundant then c % 16 / 2 * 2 else c % 16
  l.resbase + 4608 * (8 * j + b) + 288 * k

/-- The check of the banks of the issuing berth's residual table (R48, R146). -/
def State.resTableCheck (s : State) : Verdict :=
  match s.launch s.mySlot with
  | some l => s.bankCheck (l.resEntry s.iss.core s.iss.berth 0) 4608
  | none => .pass

/-- The checks of a command's sync word at issue (R48, R111). -/
def State.syncWordCheck (s : State) (w : BitVec 4) : Verdict :=
  match s.syncWord w with
  | none => .pass
  | some a => s.syncCheck a

end Sys2Proof.Machine
end

