-- ==== Sys2Proof/Machine/Desc.lean ====
section
/-! DEFINITION. Tensor descriptors (R168 to R178): fields, validity, sharding, addressing, tiles, scales, padding. -/

namespace Sys2Proof.Machine

/-- A tensor descriptor image (R169). -/
abbrev Desc := BitVec 512

/-! ## Fields (R169) -/

def Desc.word (d : Desc) (n : Nat) : Nat := bits d.toNat (64 * n) 64
def Desc.pad (d : Desc) : Nat := bits (d.word 0) 60 4
def Desc.base (d : Desc) : Nat := 16 * bits (d.word 0) 8 52
def Desc.rank (d : Desc) : Nat := bits (d.word 0) 4 3
def Desc.fmt (d : Desc) : Nat := bits (d.word 0) 0 4
def Desc.tcols (d : Desc) : Nat := bits (d.word 1) 55 4
def Desc.trows (d : Desc) : Nat := bits (d.word 1) 52 3
def Desc.skind (d : Desc) : Bool := bit (d.word 1) 51
def Desc.ordered (d : Desc) : Bool := bit (d.word 1) 50
def Desc.ms (d : Desc) : Bool := bit (d.word 1) 49
def Desc.crit (d : Desc) : Bool := bit (d.word 1) 48
def Desc.scale (d : Desc) : Nat := bits (d.word 1) 0 48
def Desc.pos (d : Desc) (j : Nat) : Nat := bits (d.word (2 + j)) 59 3
def Desc.idx (d : Desc) (j : Nat) : Nat := bits (d.word (2 + j)) 48 11
def Desc.log2n (d : Desc) (j : Nat) : Nat := bits (d.word (2 + j)) 44 4
def Desc.mode (d : Desc) (j : Nat) : Nat := bits (d.word (2 + j)) 42 2
def Desc.stride (d : Desc) (j : Nat) : Nat := bits (d.word (2 + j)) 20 18 * 2 ^ bits (d.word (2 + j)) 38 4
def Desc.extent (d : Desc) (j : Nat) : Nat := bits (d.word (2 + j)) 0 20 + 1

/-- The dimensions 0 to RANK − 1. -/
def Desc.dims (d : Desc) : List Nat := List.range (min 6 d.rank)

/-- The width of an element in memory, and in a queue entry, where f6 counts as 8 bits (R383). -/
def Desc.width (d : Desc) : Nat := ((fmtOfCode d.fmt).map Fmt.width).getD 8
def Desc.entryWidth (d : Desc) : Nat := if d.fmt = 5 then 8 else d.width

/-- The narrow formats, which carry scales (R20, R127). -/
def narrowFmt (f : Nat) : Bool := (3 ≤ f && f ≤ 8) || f == 0xB
def Desc.narrow (d : Desc) : Bool := narrowFmt d.fmt

/-- A descriptor that has been set: RANK 0 is that of reset (R168). -/
def Desc.isSet (d : Desc) : Bool := d.rank != 0

/-- The rows, columns and entry size of the queue tile (R174). -/
def Desc.rows (d : Desc) : Nat := 2 ^ d.trows
def Desc.cols (d : Desc) : Nat := 2 ^ d.tcols
def Desc.tileBytes (d : Desc) : Nat := d.rows * d.cols * d.entryWidth / 8

/-- The tile column and tile row dimensions (R169); no row dimension of a rank-1 tensor. -/
def Desc.colDim (d : Desc) : Nat := (d.dims.find? fun j => d.pos j + 1 == d.rank).getD 0
def Desc.rowDim (d : Desc) : Option Nat := d.dims.find? fun j => d.pos j + 2 == d.rank

/-! ## Validity (R170) -/

/-- The first of some (condition, place) pairs whose condition holds. -/
def firstBad (l : List (Bool × (Nat × Nat))) : Option (Nat × Nat) := (l.find? fun x => x.1).map Prod.snd

/-- The reserved fields and encodings in the order of R170, with the word and bit that each records. -/
def Desc.reserved (d : Desc) : Option (Nat × Nat) :=
  let field (w lo len : Nat) : Bool × (Nat × Nat) :=
    let x := bits (d.word w) lo len
    (x != 0, (w, lo + lowestBit x))
  firstBad ([
    (d.fmt == 0xF, (0, 0)),
    (d.rank == 0 || d.rank == 7, (0, 4)),
    field 0 7 1,
    (decide (8 < d.pad), (0, 60)),
    (decide (12 < d.tcols), (1, 55)),
    field 1 59 5] ++
    ((List.range 6).map fun j =>
      if j < d.rank then [(decide (11 < d.log2n j), (2 + j, 44)), field (2 + j) 62 2]
      else [field (2 + j) 0 64]).flatten)

/-- The conditions of R170 after the reserved ones, each with the lowest bit of the field that it concerns. DESIGN CHOICE (log 92). -/
def Desc.unfit (d : Desc) : Option (Nat × Nat) :=
  firstBad (
    (d.dims.map fun j =>
      (decide (d.rank ≤ d.pos j) || (List.range j).any fun i => d.pos i == d.pos j, (2 + j, 59))) ++
    (d.dims.map fun j =>
      if d.mode j = 0 ∧ d.log2n j ≠ 0 then (true, (2 + j, 44))
      else (decide (2 ^ d.log2n j ≤ d.idx j), (2 + j, 48))) ++
    [(d.rank == 1 && d.trows != 0, (1, 52)),
     (if d.narrow then false else if d.fmt = 0xE then d.scale / 2 ^ 8 != 0 else d.scale != 0, (1, 0))] ++
    (d.dims.map fun j =>
      (decide (d.width < 8) &&
        (if j = d.colDim then d.stride j != 1 else d.width * d.stride j % 8 != 0), (2 + j, 20))))

/-- The word and bit that a DSET of the image records, if it is not valid (R170). -/
def Desc.bad (d : Desc) : Option (Nat × Nat) :=
  match d.reserved with
  | some x => some x
  | none => d.unfit

/-! ## Sharding and addressing (R171 to R173) -/

/-- The block length of a block-cyclic dimension (R172). -/
def Desc.blockLen (d : Desc) (j : Nat) : Nat :=
  if j = d.colDim then d.cols else if d.rowDim = some j then d.rows else 1

/-- The local extent of a dimension (R172). -/
def Desc.local_ (d : Desc) (j : Nat) : Nat :=
  let g := d.extent j
  let n := 2 ^ d.log2n j
  let x := d.idx j
  match d.mode j with
  | 0 => g
  | 1 => let b := (g + n - 1) / n; min g ((x + 1) * b) - x * b
  | 2 => (g - x + n - 1) / n
  | _ =>
    let t := d.blockLen j
    -- whole rounds of n blocks, and the part of the last round that block x covers
    g / (n * t) * t + min t (g % (n * t) - x * t)

/-- The shard number (R173). -/
def Desc.shard (d : Desc) : Nat := d.dims.foldl (fun r j => r * 2 ^ d.log2n j + d.idx j) 0

/-- Whether the local tensor holds no element (R172). -/
def Desc.empty (d : Desc) : Bool := d.dims.any fun j => d.local_ j == 0

/-- Whether an index lies in the local extent of its dimension. -/
def Desc.inside (d : Desc) (j : Nat) (i : Int) : Bool := decide (0 ≤ i) && decide (i < d.local_ j)

/-- The bit address of a local element (R171). -/
def Desc.elemBit (d : Desc) (ix : List Int) : Nat :=
  8 * d.base + d.width * d.dims.foldl (fun t j => t + (ix.getD j 0).toNat * d.stride j) 0

/-- A zero stride in a dimension of more than one element (R184). -/
def Desc.zeroStride (d : Desc) : Bool := d.dims.any fun j => d.stride j == 0 && decide (1 < d.local_ j)

/-! ## Tiles (R174, R175) -/

/-- The indices of tile element (r, c) for an origin, with row indices given for GATH and SCAT (R174, R185). -/
def tileIndex (d : Desc) (origin : List Int) (rows : Option (List Int)) (r c : Nat) : List Int :=
  d.dims.map fun j =>
    let o := origin.getD j 0
    if d.rank ≠ 0 ∧ j = d.colDim then o + c
    else if d.rowDim = some j then
      match rows with
      | some l => l.getD r 0
      | none => o + r
    else o

/-- Whether an element lies in the local extents. -/
def Desc.within (d : Desc) (ix : List Int) : Bool := d.dims.all fun j => d.inside j (ix.getD j 0)

/-- The divisor of a dimension in the scale tensor (R175). -/
def Desc.scaleDiv (d : Desc) (j : Nat) : Nat :=
  if j = d.colDim then 128 else if d.skind ∧ d.rowDim = some j then 128 else 1

/-- The virtual address of an element's scale: the scale tensor is dense in the element order (R175). -/
def Desc.scaleAddr (d : Desc) (ix : List Int) : Nat :=
  let n := (List.range d.rank).foldl (fun t p =>
    let j := (d.dims.find? fun j => d.pos j == p).getD 0
    let div := d.scaleDiv j
    t * ((d.local_ j + div - 1) / div) + (ix.getD j 0).toNat / div) 0
  256 * d.scale + 4 * n

/-- The elements (r, c) of a tile that lie in the extents, of the rows given, row by row. -/
def Desc.insideElems (d : Desc) (origin : List Int) (rows : Option (List Int)) (rs : List Nat) : List (List Int) :=
  (rs.map fun r => ((List.range d.cols).map fun c => tileIndex d origin rows r c).filter d.within).flatten

/-- Whether the elements share one scale (R175). -/
def Desc.shareScale (d : Desc) (l : List (List Int)) : Bool :=
  match l with
  | [] => true
  | x :: l => l.all fun y => d.scaleAddr y == d.scaleAddr x

/-- The sharing test of a tile (R175). -/
def Desc.scalesShared (d : Desc) (origin : List Int) (rows : Option (List Int)) : Bool :=
  if !d.narrow then true
  else if d.skind then d.shareScale (d.insideElems origin rows (List.range d.rows))
  else (List.range d.rows).all fun r => d.shareScale (d.insideElems origin rows [r])

/-- The address of the scale of sideband value r; none for 1.0 (R175). -/
def Desc.sideScale (d : Desc) (origin : List Int) (rows : Option (List Int)) (r : Nat) : Option Nat :=
  let l := if d.skind then d.insideElems origin rows (List.range d.rows)
    else if r < d.rows then d.insideElems origin rows [r] else []
  l.head?.map d.scaleAddr

/-! ## Padding (R176) -/

/-- The value that padding writes. -/
def Desc.padValue (d : Desc) : Nat :=
  match fmtOfCode d.fmt with
  | some (.float f) =>
    match d.pad with
    | 0 => 0
    | 1 => f.zero true
    | 2 => f.bias * 2 ^ f.mbits
    | 3 => f.signBit true + f.bias * 2 ^ f.mbits
    | 4 => f.largest false
    | 5 => f.largest true
    | 6 => if f.specials = .ieee then f.infinity false else f.largest false
    | 7 => if f.specials = .ieee then f.infinity true else f.largest true
    | _ => if f.specials = .none then 0 else f.canonicalNaN
  | some (.int w sgn) =>
    match d.pad with
    | 2 => 1
    | 3 => if sgn then 2 ^ w - 1 else 0
    | 4 => lowBits (intBounds w sgn).2 w
    | 6 => lowBits (intBounds w sgn).2 w
    | 5 => lowBits (intBounds w sgn).1 w
    | 7 => lowBits (intBounds w sgn).1 w
    | _ => 0
  | some .a64 =>
    match d.pad with
    | 2 => 1
    | 3 => 2 ^ 64 - 1
    | 4 => 2 ^ 63 - 1
    | 6 => 2 ^ 63 - 1
    | 5 => 2 ^ 63
    | 7 => 2 ^ 63
    | _ => 0
  | none => 0

/-! ## Ranges (R178) -/

/-- The lowest and highest byte that a local index can reach, if the tensor holds an element. -/
def Desc.range (d : Desc) : Option (Nat × Nat) :=
  if d.empty then none
  else
    let last := d.dims.foldl (fun t j => t + (d.local_ j - 1) * d.stride j) 0
    some (d.base, d.base + (d.width * last + d.width - 1) / 8)

/-- The same of the scale tensor of a narrow format. -/
def Desc.scaleRange (d : Desc) : Option (Nat × Nat) :=
  if d.narrow && !d.empty then
    some (256 * d.scale, d.scaleAddr (d.dims.map fun j => ((d.local_ j - 1 : Nat) : Int)) + 3)
  else none

/-- The search of the allocation table for an entry that contains a range and permits RD to a launch (R178); the table
ends at the first entry of length 0, and the address space bounds the search. -/
def allocHas (m : Memory) (slot lo hi : Nat) : Nat → Nat → Bool
  | 0, _ => false
  | n + 1, a =>
    let len := m.read (a + 8) 6
    if len = 0 then false
    else
      let vb := m.read a 8
      let owner := m.read (a + 15) 1
      (decide (vb ≤ lo) && decide (hi < vb + len) && bit (m.read (a + 14) 1) 0 &&
        (owner == slot || owner == 0xFF)) || allocHas m slot lo hi n (a + 16)

/-- A range validated against the allocation table for the issuing berth. -/
def State.allocated (s : State) (r : Nat × Nat) : Bool :=
  let base := s.ctrl.alloctab.toNat / 16 * 16
  allocHas s.mem s.mySlot r.1 r.2 (s.mem.length + 1) base

/-- The descriptor in a register of the issuing core at the bundle's start, zeros until set (R168, R290). -/
def State.desc (s : State) (n : Nat) : Desc := Map.getD s.iss.d n 0

/-- The descriptor bound to a queue of the issuing berth (R85). -/
def State.queueDesc (s : State) (n : Nat) : Desc := s.desc (s.srcQ n).desc

/-- The check that a descriptor is set and that an entry of n bytes holds its tile (R168, R174). -/
def State.tileCheck (s : State) (dn : Nat) (esize : Nat) (q : Option Nat) : Verdict :=
  (need (s.desc dn).isSet (s.descTrap dn 0 q)).andThen (need ((s.desc dn).tileBytes == esize) (s.descTrap dn 2 q))

end Sys2Proof.Machine
end

