-- ==== Sys2Proof/Machine/Xfers.lean ====
section
/-! DEFINITION. The transfers of an engine command, in an order in which they may take place: padding first
(R183), then data (R181, R184, R185, R401, R338), and the scratchpad bytes they touch (R48). -/

namespace Sys2Proof.Machine

/-- The positions of a nest, dimension 0 fastest. -/
def nestPositions : List NestDim → List (List Nat)
  | [] => [[]]
  | d :: l =>
    ((nestPositions l).map fun o =>
      (List.range (d.padlo + d.count + d.padhi)).map fun i => i :: o).flatten

/-- Whether a position carries data. -/
def nestData : List NestDim → List Nat → Bool
  | d :: l, o :: os => decide (d.padlo ≤ o) && decide (o < d.padlo + d.count) && nestData l os
  | _, _ => true

/-- The source and destination offsets of a position. -/
def nestOffsets : List NestDim → List Nat → Int × Int
  | d :: l, o :: os =>
    let (a, b) := nestOffsets l os
    (((o : Int) - d.padlo) * d.sstr + a, (o : Int) * d.dstr + b)
  | _, _ => (0, 0)

/-- A byte address of a space as a place; a negative address is one beyond the space. -/
def placeOf (spad : Bool) (a : Int) : Place :=
  let x := lowBits a 64
  if spad then .spad (8 * x) else .virt (8 * x)

/-- The transfers of a copy nest (R181). -/
def CopyNest.xfers (n : CopyNest) : List Xfer :=
  let ps := nestPositions n.dims
  let dst (o : List Nat) : Place := placeOf n.dstSpad (n.dst + (nestOffsets n.dims o).2)
  (if n.padu then [] else (ps.filter fun o => !nestData n.dims o).map fun o =>
    ({ src := none, value := n.padv % 2 ^ (8 * n.esz), dst := dst o, width := 8 * n.esz, mark := false } : Xfer)) ++
  (ps.filter fun o => nestData n.dims o).map fun o =>
    ({ src := some (placeOf n.srcSpad (n.src + (nestOffsets n.dims o).1)), value := 0, dst := dst o,
       width := 8 * n.esz, mark := false } : Xfer)

/-- The elements (r, c) of a tile. -/
def Desc.elems (d : Desc) : List (Nat × Nat) :=
  ((List.range d.rows).map fun r => (List.range d.cols).map fun c => (r, c)).flatten

/-- The place of element (r, c) in a queue entry (R174, R383). -/
def tilePlace (d : Desc) (entry r c : Nat) : Place := .spad (8 * entry + d.width * (r * d.cols + c))

/-- The transfers that fill an entry (R184, R185, R175): padding, the last quarter of an f6 entry, the data, and
the scale sideband. -/
def TileJob.loadXfers (t : TileJob) : List Xfer :=
  let d : Desc := t.desc
  let ix (x : Nat × Nat) : List Int := tileIndex d t.origin t.rows x.1 x.2
  (if t.padu then [] else (d.elems.filter fun x => !d.within (ix x)).map fun x =>
    ({ src := none, value := d.padValue, dst := tilePlace d t.entry x.1 x.2, width := d.width,
       mark := false } : Xfer)) ++
  (if d.fmt = 5 then (List.range (t.esize / 4)).map fun i =>
    ({ src := none, value := 0, dst := .spad (8 * (t.entry + 3 * t.esize / 4 + i)), width := 8,
       mark := false } : Xfer) else []) ++
  ((d.elems.filter fun x => d.within (ix x)).map fun x =>
    ({ src := some (.virt (d.elemBit (ix x))), value := 0, dst := tilePlace d t.entry x.1 x.2,
       width := d.width, mark := false } : Xfer)) ++
  (if d.narrow then (List.range 32).map fun r =>
    ({ src := (d.sideScale t.origin t.rows r).map fun a => .virt (8 * a), value := 0x3F800000,
       dst := .side t.entry r, width := 32, mark := false } : Xfer) else [])

/-- The transfers that write an entry's elements inside the extents to the tensor (R184, R185); the entry's bytes and the
marks of its blocks are given. Rows go in ascending order, so that of two rows with one index the higher lane's is
written last (R185, log 22). -/
def TileJob.storeXfers (t : TileJob) (bytes marks : Nat) : List Xfer :=
  let d : Desc := t.desc
  let ix (x : Nat × Nat) : List Int := tileIndex d t.origin t.rows x.1 x.2
  (d.elems.filter fun x => d.within (ix x)).map fun x =>
    let at_ := d.width * (x.1 * d.cols + x.2)
    ({ src := none, value := bits bytes at_ d.width, dst := .virt (d.elemBit (ix x)), width := d.width,
       mark := bit marks (at_ / 1024) } : Xfer)

/-- The transfers of a command. A line of PREF, PIN or UNPN, and the line of an ACCH, stands as a transfer of no
bits, which is translated like any other. -/
def Work.xfers : Work → List Xfer
  | .copy n => n.xfers
  | .load t => t.loadXfers
  | .store t bytes marks => t.storeXfers bytes marks
  | .lines start length => (unitsOf 256 start length).map fun i =>
      { src := some (.virt (8 * 256 * i)), value := 0, dst := .side 0 0, width := 0, mark := false }
  | .acch line .. => [{ src := none, value := 0, dst := .virt (8 * line), width := 0, mark := false }]
  | .result spad dest size bytes mark _ => (List.range size).map fun i =>
      { src := none, value := bits bytes (8 * i) 8, dst := placeOf spad (dest + i), width := 8, mark := mark }
  | _ => []

/-- The scratchpad bytes of a place of some bits, as (address, length). -/
def Place.spadRange (p : Place) (width : Nat) : List (Nat × Nat) :=
  match p with
  | .spad b => if width = 0 then [] else [(b / 8, (b + width - 1) / 8 - b / 8 + 1)]
  | _ => []

/-- The scratchpad ranges that a transfer touches. -/
def Xfer.spadRanges (x : Xfer) : List (Nat × Nat) :=
  (match x.src with
    | some p => p.spadRange x.width
    | none => []) ++ x.dst.spadRange x.width

/-- Whether the result is written to the DEST of a contributor (R338). -/
def CollJob.receives (j : CollJob) : Bool := j.kind != 1 || j.rank == j.root

/-- The scratchpad ranges that a command touches: its sync word, the source entries that it has still to read and the DEST of a result
that it awaits included. -/
def Command.spadRanges (k : Command) : List (Nat × Nat) :=
  (k.work.xfers.map Xfer.spadRanges).flatten ++ (k.sync.map fun a => [(a, 16)]).getD [] ++
    (k.unread.map fun x => (x.addr, x.size)) ++
    (match k.work with
      | .coll j => if j.destSpad && j.receives then [(j.dest, j.size)] else []
      | _ => [])

/-- The record of BANK_OWNER for a set of ranges (R272): the lowest bank that fails, then a range beyond 4 MiB. -/
def Cluster.rangesError (k : Cluster) (slot : Nat) (ok : BankMode → Bool) (l : List (Nat × Nat)) : Option Nat :=
  let fails (n : Nat) : Bool := !ok (k.bank n).mode || (k.bank n).owner != some slot
  match (List.range 32).find? fun n => fails n && l.any fun r => (rangeBanks r.1 r.2).contains n with
  | some n => some ((if ok (k.bank n).mode then 0 else 2 ^ 5) + n)
  | none => if l.any fun r => decide (spadSize < r.1 + r.2) then some (2 ^ 6) else none

/-- The modes in which an engine reads and writes a bank (R150). -/
def engineMode (m : BankMode) : Bool := m != .cache

/-- The bank to which a message of an XST is to be written, at a cluster that records a phase (R229, R440). -/
def xstBank (phase bankA bankB : Nat) : Nat := if phase % 2 = 0 then bankB else bankA

/-- A message that will write to a bank of a cluster: spliced data, or a packet of an XST, which may go to either bank of its
group. -/
def State.msgHits (s : State) (cl : Nat) (hits : Nat → Nat → Bool) (m : Msg) : Bool :=
  match m with
  | .data c b q n .. =>
    let k := (s.berth c b).regs.queue q
    clusterOf c == cl && hits (k.slotAddr (.ofNat 16 n)) k.esize
  | .xst cmd k _ first size .. =>
    k == cl && (match (Map.get? s.commands cmd).map Command.work with
      | some (.xst _ _ _ _ _ offset bankA bankB) =>
        hits (bankA * bankSize + offset + first) size || hits (bankB * bankSize + offset + first) size
      | _ => false)
  | _ => false

/-- A held store of a berth that will write to scratchpad when its segment commits (R189, R241). -/
def Held.hits (h : Held) (hits : Nat → Nat → Bool) : Bool :=
  match h with
  | .sts a n _ => hits a n
  | .swset a _ => hits a 16
  | .swadd a _ => hits a 16
  | _ => false

/-- Whether an access to a bank of a cluster has been issued and not performed (R331). -/
def State.bankBusy (s : State) (cl n : Nat) : Bool :=
  let hits (a k : Nat) : Bool := (rangeBanks a k).contains n
  (s.writebacks.any fun e => clusterOf e.2.core == cl && hits e.2.addr e.2.esize) ||
  (s.commands.any fun e => clusterOf e.2.core == cl && !e.2.held &&
    e.2.spadRanges.any fun r => hits r.1 r.2) ||
  (s.messages.any fun e => s.msgHits cl hits e.2) ||
  ((List.range 16).any fun i =>
    let k := s.core (16 * cl + i)
    ((k.half0 ++ k.half1).any fun m => (m.dest.map fun w => hits w.addr w.esize).getD false) ||
      k.berths.toList.any fun b => b.held.any fun h => h.hits hits)

end Sys2Proof.Machine
end

