-- ==== Sys2Proof/Machine/Sync.lean ====
section
/-! DEFINITION. Atomics, fences, waits, buffer rings, barriers, revocation by HINV (R114, R115, R196, R198, R321, R325, R328, R362,
R370, R409, R437). -/

namespace Sys2Proof.Machine

/-! ## ATOM (R325) -/

/-- The checks of ATOM after those of R160: the scope, and a frame in another package or in host memory. -/
def State.atomCheck (s : State) (f : FAtom) : Verdict :=
  let off := (s.srcG f.a).toNat % 2 ^ 16
  let scope := bits (s.srcG f.a).toNat 16 3
  let x := s.srcH f.h
  let t := s.target (x.frame.toNat * 2 ^ 16)
  (s.scopeCheck scope).andThen
    (match t with
      | .pod _ => need (!(f.c == 1 && decide (scope < 6))) (s.trap tProt (sub 1 (scope + 8 * s.myScope)))
      | .host => .trap (s.trap tProt (off * 16 + f.h.toNat))
      | _ => .pass)

/-- ATOM.sc waits for the berth's earlier CORE accesses, its earlier ATOM.sc among them (R198). -/
def State.ticketReady (s : State) (f : FAtom) : Verdict :=
  await (f.c == 0 || !s.pathBusy s.iss.core s.iss.berth pCore)

/-- ATOM (R325): the access goes to its home slice, an ATOM.sc by way of its sequencer (R198). -/
def semAtom (f : FAtom) : OpSem :=
  OpSem.once { OpSem.plain (fun _ => true) ([rG f.a, rG f.b, rH f.h] ++ (if f.f = 9 then [rG f.d] else [])) [(rG f.d, none)]
      (fun s =>
        let n := if f.s = 1 then 8 else 4
        let a : Access := { s.newAccess f.h ((s.srcG f.a).toNat % 2 ^ 16) n 2 with
          fn := f.f.toNat, data := (s.srcG f.b).toNat % 2 ^ (8 * n), cmp := (s.srcG f.d).toNat % 2 ^ (8 * n),
          dest := f.d.toNat, sc := f.c == 1, scope := bits (s.srcG f.a).toNat 16 3 }
        if f.c = 1 then
          ({ (s.awaitReply f.d).bump with accesses := Map.set s.accesses s.stamp a }).later
            (.ticketRequestArrive s.stamp)
        else (s.awaitReply f.d).sendAccess a) with
    check := fun s =>
      [s.accessCheck f.h ((s.srcG f.a).toNat % 2 ^ 16) (if f.s = 1 then 8 else 4) ⟨false, true, true⟩, s.atomCheck f,
        s.msReady f.h, s.ticketReady f] }
def execAtom (f : FAtom) (s : State) : Host.Outcome State Fault Refusal := runSlot (.atom f) (semAtom f) s

/-! ## FENCE (R196, R362) -/

def semFence (f : FFence) : OpSem :=
  { OpSem.plain (fun _ => true) [] [] (fun s => s.joinClocks s.iss.core s.iss.berth f.m.toNat) with
    check := fun s =>
      [s.scopeCheck f.s.toNat, await (s.pathsQuiet s.iss.core s.iss.berth f.m.toNat)] }
def execFence (f : FFence) (s : State) : Host.Outcome State Fault Refusal := runSlot (.fence f) (semFence f) s

/-! ## WAIT (R114, R115, R437) -/

/-- The decision of a WAIT whose condition is c: it passes, expires, or waits. The timeout 0 tests once. -/
def State.waitCheck (s : State) (c : Bool) (timeout : BitVec 5) (t : BitVec 1) (form : Nat) : Verdict :=
  if c then .pass
  else if (s.srcG timeout).toNat % 2 ^ 32 = 0 ∨ s.me.timedOut.contains s.iss.slot then
    need (t == 0) (s.trap tWaitTimeout form)
  else .wait

/-- The outcome of a WAIT written (R114). -/
def State.endWait (s : State) (c : Bool) (k : BitVec 3) (t : BitVec 1) : State :=
  let s := s.onMe fun b => { b with
    timedOut := b.timedOut.filter fun n => n != s.iss.slot, waited := Map.erase b.waited s.iss.slot }
  if t = 1 then s else s.putK k c

/-- The condition of WAIT, form gen. -/
def State.genReached (s : State) (f : FWaitGen) : Bool :=
  let gen := s.startView (s.syncAddr f.a + 8) 4
  decide ((gen + 2 ^ 32 - (s.srcG f.b).toNat % 2 ^ 32) % 2 ^ 32 < 2 ^ 31)

def waitWrites (k : BitVec 3) (t : BitVec 1) : List (RegName × Option Nat) := if t = 1 then [] else [(rK k, none)]

/-- WAIT, form gen (R114). The read of GEN orders QREAD after every byte counted towards
it, for GEN was written at a time no earlier than they were (R192, R199). -/
def semWaitGen (f : FWaitGen) : OpSem :=
  OpSem.once { OpSem.plain (fun _ => true) [rG f.d, rG f.a, rG f.b] (waitWrites f.k f.t)
      (fun s => (s.touchSpad s.iss.core s.iss.berth pQread false (s.syncAddr f.a + 8) 4).endWait (s.genReached f) f.k f.t) with
    check := fun s => [s.syncCheck (s.syncAddr f.a), s.waitCheck (s.genReached f) f.d f.t 0] }
def execWaitGen (f : FWaitGen) (s : State) : Host.Outcome State Fault Refusal :=
  runSlot (.waitGen f) (semWaitGen f) s

/-- The condition of WAIT, form buf: the buffer is FULL. -/
def State.bufferFull (s : State) (f : FWaitBuf) : Bool :=
  match s.myCluster.ring f.r.toNat with
  | some r => r.state (s.srcG f.a).toNat == .full
  | none => false

/-- QREAD of the issuing berth ordered after every byte of the copy that made a buffer FULL (R192, R199, R321). -/
def State.afterCopy (s : State) (r : Ring) (i : Nat) : State :=
  s.raisePts s.iss.core s.iss.berth pQread (Map.getD r.times i 0)

/-- QREAD ordered after the copy that made the buffer FULL, where it is (R192, R437). -/
def State.seeBuffer (s : State) (f : FWaitBuf) : State :=
  match s.bufferFull f, s.myCluster.ring f.r.toNat with
  | true, some r => s.afterCopy r (s.srcG f.a).toNat
  | _, _ => s

/-- WAIT, form buf (R114, R437). -/
def semWaitBuf (f : FWaitBuf) : OpSem :=
  OpSem.once { OpSem.plain (fun _ => true) [rG f.d, rG f.a] (waitWrites f.k f.t)
      (fun s => (s.seeBuffer f).endWait (s.bufferFull f) f.k f.t) with
    check := fun s =>
      [s.ringCheck f.r.toNat,
        need (((s.myCluster.ring f.r.toNat).map fun r => decide ((s.srcG f.a).toNat < r.count)).getD false) (s.ringTrap f.r.toNat),
        s.waitCheck (s.bufferFull f) f.d f.t 1] }
def execWaitBuf (f : FWaitBuf) (s : State) : Host.Outcome State Fault Refusal :=
  runSlot (.waitBuf f) (semWaitBuf f) s

/-- WAIT, form hdl (R114). -/
def semWaitHdl (f : FWaitHdl) : OpSem :=
  OpSem.once { OpSem.plain (fun _ => true) [rG f.d, rH f.h] (waitWrites f.k f.t)
      (fun s => s.endWait (s.srcH f.h).ready f.k f.t) with
    check := fun s => [s.waitCheck (s.srcH f.h).ready f.d f.t 2] }
def execWaitHdl (f : FWaitHdl) (s : State) : Host.Outcome State Fault Refusal :=
  runSlot (.waitHdl f) (semWaitHdl f) s

/-! ## Buffer rings (R109, R110, R321, R409) -/

/-- The buffer that ACQB takes next on a side: its index, and the state it must be in. -/
def Ring.next (r : Ring) (consumer : Bool) : Nat × BufferState :=
  if consumer then (r.consumer % r.count, .full) else (r.producer % r.count, .empty)

/-- The buffer is available. -/
def Ring.available (r : Ring) (consumer : Bool) : Bool := r.state (r.next consumer).1 == (r.next consumer).2

/-- The ring after an acquisition (R109). -/
def Ring.acquire (r : Ring) (consumer : Bool) : Ring :=
  if consumer then { r.setState (r.next true).1 .draining with consumer := r.consumer + 1 }
  else { r.setState (r.next false).1 .filling with producer := r.producer + 1 }

/-- The berths that wait at a counter of a ring, in order of arrival (R109). -/
def Ring.line (r : Ring) (consumer : Bool) : List (Nat × Nat) := if consumer then r.consumers else r.producers

/-- Whether the next buffer of a ring of the issuing cluster is available to the issuing berth: it is in the state to be acquired,
and no other berth has waited for it longer (R109). -/
def State.ringReady (s : State) (n : Nat) (consumer : Bool) : Bool :=
  ((s.myCluster.ring n).map fun r => r.available consumer &&
    ((r.line consumer).head?.map fun x => x == (s.iss.core, s.iss.berth)).getD true).getD false

/-- The acquisition of a buffer: its address in a register (R109, R321). -/
def State.acquire (s : State) (n : Nat) (consumer : Bool) (d : BitVec 5) : State :=
  match s.myCluster.ring n with
  | some r =>
    (((if consumer then s.afterCopy r (r.next true).1 else s).setRing s.clNum n (r.acquire consumer)).leaveRings s.iss.core s.iss.berth).putG d
      (.ofNat 64 (r.addr (r.next consumer).1))
  | none => s

/-- ACQB (R109): it waits in the line of its counter. -/
def semAcqb (f : FAcqb) : OpSem :=
  OpSem.once { OpSem.plain (fun _ => true) [] [(rG f.d, none)] (fun s => s.acquire f.o.toNat (f.c == 1) f.d) with
    check := fun s => [s.ringCheck f.o.toNat,
      if s.ringReady f.o.toNat (f.c == 1) then .pass else .line f.o.toNat (f.c == 1)] }
def execAcqb (f : FAcqb) (s : State) : Host.Outcome State Fault Refusal := runSlot (.acqb f) (semAcqb f) s

/-- ACQBT (R109). -/
def semAcqbt (f : FAcqbt) : OpSem :=
  OpSem.once { OpSem.plain (fun _ => true) [] [(rG f.d, none), (rK f.k, none)]
      (fun s =>
        if s.ringReady f.o.toNat (f.c == 1) then (s.acquire f.o.toNat (f.c == 1) f.d).putK f.k true
        else s.putK f.k false) with
    check := fun s => [s.ringCheck f.o.toNat] }
def execAcqbt (f : FAcqbt) (s : State) : Host.Outcome State Fault Refusal := runSlot (.acqbt f) (semAcqbt f) s

/-- The check that a RELB fits the ring as the berth's earlier held releases will leave it (R409). -/
def State.relbFits (s : State) (f : FRelb) : Verdict :=
  match s.myCluster.ring f.o.toNat with
  | none => .trap (s.ringTrap f.o.toNat)
  | some r =>
    need ((heldRing s.me.held f.o.toNat r).release ((s.srcG f.a).toNat % spadSize) (f.c == 1)).isSome
      (s.ringTrap f.o.toNat)

/-- RELB (R409), held until commit. -/
def semRelb (f : FRelb) : OpSem :=
  { OpSem.plain (fun _ => true) [rG f.a] []
      (fun s => s.hold (.relb f.o.toNat ((s.srcG f.a).toNat % spadSize) (f.c == 1))) with
    check := fun s => [s.ringCheck f.o.toNat, s.relbFits f] }
def execRelb (f : FRelb) (s : State) : Host.Outcome State Fault Refusal := runSlot (.relb f) (semRelb f) s

/-! ## BAR (R327, R328) -/

/-- The fields of a group word (R327). -/
def groupCount (w : Word) : Nat := bits w.toNat 0 16
def groupId (w : Word) : Nat := bits w.toNat 16 4
def groupHome (w : Word) : Nat := bits w.toNat 30 7
def groupBanked (w : Word) : Bool := w.getLsbD 37
def groupA (w : Word) : Nat := bits w.toNat 38 5
def groupB (w : Word) : Nat := bits w.toNat 43 5

/-- The checks of BAR, in the order of R328. -/
def State.barCheck (s : State) (f : FBar) : Verdict :=
  let w := s.srcG f.a
  let bad (n : Nat) : Bool := (s.myCluster.bank n).mode != .scratchpad || (s.myCluster.bank n).owner != some s.mySlot
  let bank (n : Nat) : Verdict :=
    need (!bad n) (s.trap tBankOwner ((if (s.myCluster.bank n).mode = .scratchpad then 0 else 2 ^ 5) + n))
  let scope := s.trap tProt (sub 1 (f.s.toNat + 8 * s.myScope))
  (((need (decide (f.s.toNat ≤ 5)) scope).andThen (s.scopeCheck f.s.toNat)).andThen
    (s.clusterCheck (groupHome w))).andThen
    ((need (bits w.toNat 48 16 == 0 && bits w.toNat 20 10 == 0 && decide (1 ≤ groupCount w) &&
        decide (groupCount w ≤ 12288)) (s.trap tDescInvalid (sub 4 f.a.toNat))).andThen
      (if groupBanked w then
        (bank (min (groupA w) (groupB w))).andThen (bank (max (groupA w) (groupB w)))
       else .pass))

/-- BAR (R328): the fence of every path, and the arrival on its way; the next bundle waits for the completion. -/
def semBar (f : FBar) : OpSem :=
  OpSem.once { OpSem.plain (fun _ => true) [rG f.a] []
      (fun s =>
        let s := s.joinClocks s.iss.core s.iss.berth 0xFF
        (s.onMe fun b => { b with awaiting := some s.stamp, atBar := true }).send
          (.bar s.iss.core s.iss.berth s.mySlot (s.srcG f.a) (f.w == 1))) with
    check := fun s => [s.barCheck f, await (s.pathsQuiet s.iss.core s.iss.berth 0xFF)] }
def execBar (f : FBar) (s : State) : Host.Outcome State Fault Refusal := runSlot (.bar f) (semBar f) s

/-! ## HINV (R370) -/

/-- HINV: revokes the page of an address; the berth's next bundle waits until every engine within a granule of it has stopped or
left it (R161). -/
def semHinv (f : FHinv) : OpSem :=
  OpSem.once { OpSem.plain (fun _ => true) [rG f.a] []
      (fun s => (s.revoke (s.srcG f.a).toNat).onMe fun b => { b with revoking := some (s.srcG f.a).toNat }) with
    priv := fun s => s.supOnly 0x39 }
def execHinv (f : FHinv) (s : State) : Host.Outcome State Fault Refusal := runSlot (.hinv f) (semHinv f) s

end Sys2Proof.Machine
end

