-- ==== Sys2Proof/Machine/Queues.lean ====
section
/-! DEFINITION. Task queues and operand queues as instructions use them, banks, descriptors and CHKQ (R49, R86 to
R88, R96 to R106, R147, R335, R348, R350, R353, R354, R406, R421). -/

namespace Sys2Proof.Machine

/-- Bytes written to scratchpad at once by an S-slot operation, on the QWRITE path (R188, R195). -/
def State.writeSpad (s : State) (addr n v : Nat) : State :=
  ((s.onMe fun b => { b with held := trimHeld b.held addr n }).onSpad s.clNum fun m => m.write addr n v).touchSpad
    s.iss.core s.iss.berth pQwrite true addr n

/-! ## Task queues (R103 to R106, R348, R353, R354, R421) -/

/-- The units of the packet image at an address, as it stands at issue: its LENM1 plus one (R66, R353, R354). -/
def State.imageUnits (s : State) (a : Nat) : Nat := s.startView a 1 % 8 + 1

/-- The words of the packet image at an address. -/
def State.image (s : State) (a : Nat) : List Word :=
  wordsOf (4 * s.imageUnits a) (s.startView a (32 * s.imageUnits a))

/-- The address in a scalar register: bits [21:0]. -/
def State.addr22 (s : State) (a : BitVec 5) : Nat := (s.srcG a).toNat % spadSize

/-- The checks of ENQ's image and target (step 1 of R353). The read of the image takes no timestamp of a path: R188 gives it to none.
DESIGN CHOICE (log 104). -/
def State.enqCheck (s : State) (a cl : BitVec 5) : List Verdict :=
  let x := s.addr22 a
  [s.alignCheck x 32, s.bankCheck x (32 * s.imageUnits x), s.clusterCheck (s.srcG cl).toNat,
    await (s.spadQuiet x (32 * s.imageUnits x))]

/-- What an operation has asked for in its slot. -/
def State.askedHere (s : State) : Option Asked := s.me.asked.find? fun a => a.slot == s.iss.slot

/-- The check of a reservation for a packet: it is asked for, awaited, granted, or refused under the quota (R353). -/
def State.reservationCheck (s : State) (cl tq : Nat) (pkt : List Word) : Verdict :=
  match s.askedHere with
  | none => .ask s.iss.slot (.enq s.iss.core s.iss.berth s.iss.slot cl tq (pkt.length / 4) s.mySlot) pkt
  | some a =>
    match a.answer with
    | none => .wait
    | some 0 => .pass
    | some _ => .trap (s.trap tSpillQuota (cl * 16 + tq))

/-- ENQ and SPAWN held with the packet read in the slot and the reservation granted for it (R353). -/
def State.holdEnq (s : State) (cl tq : Nat) : State :=
  match s.askedHere with
  | some a =>
    (s.hold (.enq a.id cl tq a.packet)).onMe fun b => { b with asked := b.asked.filter fun x => x.slot != s.iss.slot }
  | none => s

/-- The reservation of ENQ and SPAWN: the even member of a pair makes it for both, and its trap is the odd member's (R249, R353). -/
def State.placeCheck (s : State) (cl tq : Nat) (pkt : List Word) : Verdict :=
  if s.odd then s.twinTrap else s.reservationCheck cl tq pkt

/-- ENQ (R353). The odd member of a pair reserves nothing, and its copy serves the comparison (R249). -/
def semEnq (f : FEnq) : OpSem :=
  { OpSem.plain (fun _ => true) [rG f.a, rG f.b] []
      (fun s =>
        let cl := (s.srcG f.b).toNat
        if s.odd then s.hold (.enq s.stamp cl f.q.toNat (s.image (s.addr22 f.a))) else s.holdEnq cl f.q.toNat) with
    check := fun s =>
      s.enqCheck f.a f.b ++ [s.placeCheck (s.srcG f.b).toNat f.q.toNat (s.image (s.addr22 f.a))] }
def execEnq (f : FEnq) (s : State) : Host.Outcome State Fault Refusal := runSlot (.enq f) (semEnq f) s

/-- ENQT's attempt (R105): into the hardware queue, or not at all. -/
def State.tryEnq (s : State) (cl tq : Nat) (pkt : List Word) : State × Bool :=
  if s.ringOcc cl tq = 0 ∧ pkt.length / 4 ≤ s.tqFree cl tq then
    (s.bump.setTq cl tq (s.tq cl tq ++
      [{ words := stampPacket s.mySlot pkt, units := pkt.length / 4, num := s.stamp, since := s.cycleOf (16 * cl),
         reserved := none }]), true)
  else (s, false)

/-- ENQT (R354). -/
def semEnqt (f : FEnqt) : OpSem :=
  OpSem.once { OpSem.plain (fun _ => true) [rG f.a, rG f.b] [(rK f.k, none)]
      (fun s =>
        let r := s.tryEnq (s.srcG f.b).toNat f.q.toNat (s.image (s.addr22 f.a))
        r.1.putK f.k r.2) with
    check := fun s => s.enqCheck f.a f.b }
def execEnqt (f : FEnqt) (s : State) : Host.Outcome State Fault Refusal := runSlot (.enqt f) (semEnqt f) s

/-- The launch slot in a header (R66). -/
def headerSlot (w : Word) : Nat := bits w.toNat 32 4

/-- The head packet of a queue that the issuing berth may take: present and of its launch (R348). -/
def State.takeable (s : State) (tq : Nat) : Option Packet :=
  match s.tq s.clNum tq with
  | p :: _ =>
    match p.words with
    | w :: _ => if p.reserved = none ∧ headerSlot w = s.mySlot then some p else none
    | [] => none
  | [] => none

/-- The checks of DEQ's address (R106, R348). -/
def State.deqCheck (s : State) (a : BitVec 5) : Verdict :=
  (s.alignCheck (s.addr22 a) 32).andThen (s.bankCheck (s.addr22 a) 256)

/-- The head packet taken (R348). -/
def State.take (s : State) (tq : Nat) (p : Packet) (a d : BitVec 5) : State :=
  ((s.setTq s.clNum tq ((s.tq s.clNum tq).drop 1)).writeSpad (s.addr22 a) (32 * p.units) (ofWords p.words)).putG d
    (p.words.head?.getD 0)

/-- DEQ (R348). -/
def semDeq (f : FDeq) : OpSem :=
  OpSem.once { OpSem.plain (fun _ => true) [rG f.a] [(rG f.d, none)]
      (fun s => match s.takeable f.q.toNat with
        | some p => s.take f.q.toNat p f.a f.d
        | none => s) with
    check := fun s => [s.deqCheck f.a, await (s.takeable f.q.toNat).isSome] }
def execDeq (f : FDeq) (s : State) : Host.Outcome State Fault Refusal := runSlot (.deq f) (semDeq f) s

/-- DEQT (R348). -/
def semDeqt (f : FDeqt) : OpSem :=
  OpSem.once { OpSem.plain (fun _ => true) [rG f.a] [(rG f.d, none), (rK f.k, none)]
      (fun s => match s.takeable f.q.toNat with
        | some p => (s.take f.q.toNat p f.a f.d).putK f.k true
        | none => s.putK f.k false) with
    check := fun s => [s.deqCheck f.a] }
def execDeqt (f : FDeqt) (s : State) : Host.Outcome State Fault Refusal := runSlot (.deqt f) (semDeqt f) s

/-- The packet that SPAWN builds (R421). -/
def State.spawnPacket (s : State) (f : FSpawn) : List Word :=
  let h := setBits (setBits (s.srcG f.a).toNat 0 3 0) 19 3 0
  [.ofNat 64 h, s.srcG f.b, s.srcG (f.b + 1), s.srcG (f.b + 2)]

/-- SPAWN (R421). -/
def semSpawn (f : FSpawn) : OpSem :=
  { OpSem.plain (fun _ => true) [rG f.d, rG f.a, rG f.b, rG (f.b + 1), rG (f.b + 2)] []
      (fun s =>
        let cl := (s.srcG f.d).toNat
        if s.odd then s.hold (.enq s.stamp cl f.q.toNat (s.spawnPacket f)) else s.holdEnq cl f.q.toNat) with
    check := fun s =>
      [s.clusterCheck (s.srcG f.d).toNat, s.placeCheck (s.srcG f.d).toNat f.q.toNat (s.spawnPacket f)] }
def execSpawn (f : FSpawn) (s : State) : Host.Outcome State Fault Refusal := runSlot (.spawn f) (semSpawn f) s

/-! ## Operand queues (R85 to R88, R96 to R100, R406) -/

/-- A configuration word without a reserved bit or value (R85, R86). -/
def cfgValid (w : Word) : Bool :=
  bits w.toNat 56 8 == 0 && bits w.toNat 45 3 == 0 && bits w.toNat 39 1 == 0 && bits w.toNat 22 14 == 0 &&
    decide (bits w.toNat 36 3 ≤ 5) && decide (bits w.toNat 40 4 ≤ 8)

/-- Every append to a queue of the issuing berth has been written, or counts as written (R86). -/
def State.appendsDone (s : State) (q : Nat) : Bool :=
  let mine (w : Writeback) : Bool :=
    w.core == s.iss.core && w.berth == s.iss.berth && w.esize != 0 && w.queue == q
  (s.writebacks.all fun e => !mine e.2) &&
    ((s.myCore.half0 ++ s.myCore.half1).all fun m => !((m.dest.map mine).getD false)) &&
    (s.commands.all fun e => !(s.owns s.iss.core s.iss.berth e.2 &&
      (e.2.append.map fun x => x.1 == q).getD false))

/-- The checks of QCFG, in the order of R86; a queue that a splice has come to feed since the bundle issued fails them at the commit.
DESIGN CHOICE (log 14). -/
def State.qcfgCheck (s : State) (q : Nat) (w : Word) : List Verdict :=
  let x := s.liveQ q
  [need (cfgValid w) (s.queueTrap q), need ((x.splice == .localQ || x.splice == .openQ) && !x.subscribed) (s.queueTrap q),
    s.alignCheck (cfgBase w) (cfgEsize w), s.bankCheck (cfgBase w) (cfgCap w * cfgEsize w), await (s.appendsDone q)]

/-- QCFG (R86): the configuration is installed and the presence bits of the region cleared. -/
def semQcfg (f : FQA) : OpSem :=
  { OpSem.plain (fun _ => true) [rG f.a] []
      (fun s =>
        let w := s.srcG f.a
        (s.onRegs fun x => x.putQ f.q.toNat
          { Queue.zero with configured := true, cfg := w, splice := if w.getLsbD 44 then .openQ else .localQ }).onMyCluster
          fun k => k.onBlocks (cfgBase w) (cfgCap w * cfgEsize w / 128) fun b => { b with present := false }) with
    check := fun s => s.qcfgCheck f.q.toNat (s.srcG f.a) }
def execQcfg (f : FQA) (s : State) : Host.Outcome State Fault Refusal := runSlot (.qcfg f) (semQcfg f) s

/-- DESC_INVALID, SUB 2, with a reason (R272). -/
def State.spliceTrap (s : State) (reason : Nat) : Trap := s.trap tDescInvalid (sub 2 reason)

/-- The target of a QSPL: the odd member of a redundant pair names the odd core of the consumer pair (R406). -/
def State.spliceTarget (s : State) (w : Word) : Word :=
  if s.me.red then .ofNat 64 (setBits w.toNat 0 1 (s.iss.core % 2)) else w

/-- The checks of QSPL (R96), then its request and the consumer's answer. -/
def State.qsplCheck (s : State) (q : Nat) (w : Word) : Verdict :=
  match s.askedHere with
  | some a =>
    match a.answer with
    | none => .wait
    | some 0 => .pass
    | some r => .trap (s.spliceTrap r)
  | none =>
    ((need (bits w.toNat 16 48 == 0) (s.spliceTrap 1)).andThen
      (need ((s.srcQ q).splice == .localQ && (s.srcQ q).occ == 0 && !(s.srcQ q).subscribed) (s.spliceTrap 2))).andThen
      ((s.coreCheck (bits w.toNat 0 11)).andThen
        (.ask s.iss.slot (.qspl s.iss.core s.iss.berth s.iss.slot q w) []))

/-- QSPL (R96): the reply has spliced the queue; the bundle goes on. -/
def semQspl (f : FQA) : OpSem :=
  { OpSem.plain (fun _ => true) [rG f.a] []
      (fun s => s.onMe fun b => { b with asked := b.asked.filter fun x => x.slot != s.iss.slot }) with
    check := fun s => [s.qsplCheck f.q.toNat (s.spliceTarget (s.srcG f.a))] }
def execQspl (f : FQA) (s : State) : Host.Outcome State Fault Refusal := runSlot (.qspl f) (semQspl f) s

/-- A SPLICED queue of a berth unspliced: the message that asks for the confirmation is on its way (R100). -/
def State.unsplice (s : State) (c b q : Nat) : State :=
  let x := (s.berth c b).regs.queue q
  (s.onBerth c b fun k => { k with
      regs := k.regs.putQ q { x with splice := .unsplicing } }).send
    (.unsplice x.peerCore x.peerBerth x.peerQueue c b q)

/-- QUSP (R100). -/
def semQusp (f : FQ) : OpSem :=
  { OpSem.plain (fun _ => true) [] []
      (fun s =>
        if (s.liveQ f.q.toNat).splice = .spliced then
          (s.onMe fun b => { b with awaiting := some s.stamp }).unsplice s.iss.core s.iss.berth f.q.toNat
        else s) with
    check := fun s => [need ((s.srcQ f.q.toNat).splice != .fed) (s.queueTrap f.q.toNat)] }
def execQusp (f : FQ) (s : State) : Host.Outcome State Fault Refusal := runSlot (.qusp f) (semQusp f) s

/-- The value that QDIST writes (R88, R406). -/
def Queue.distance (q : Queue) : Nat :=
  if !q.configured then 0
  else
    match q.splice with
    | .splicing => 0
    | .spliced => (q.remoteTail - q.mirrored).toNat
    | .unsplicing => (q.remoteTail - q.mirrored).toNat
    | _ => q.occ

/-- QDIST (R406). -/
def semQdist (f : FQD) : OpSem :=
  .plain (fun _ => true) [] [(rG f.d, some 1)] (fun s => s.putG f.d (.ofNat 64 (s.srcQ f.q.toNat).distance))
def execQdist (f : FQD) (s : State) : Host.Outcome State Fault Refusal := runSlot (.qdist f) (semQdist f) s

/-! ## Banks (R49, R147, R326, R331) -/

/-- The first bank of a list that fails a test of it, with BANK_OWNER (R272, R326). -/
def State.banksCheck (s : State) (l : List Nat) (ok : Bank → Bool) : Verdict :=
  match l.find? fun n => !ok (s.myCluster.bank n) with
  | some n => .trap (s.trap tBankOwner ((if (s.myCluster.bank n).mode = .scratchpad then 0 else 2 ^ 5) + n))
  | none => .pass

/-- BREL (R49). -/
def semBrel (f : FA) : OpSem :=
  OpSem.once { OpSem.plain (fun _ => true) [rG f.a] []
      (fun s => s.onMyCluster fun k =>
        (banksOf (s.srcG f.a)).foldl (fun (k : Cluster) n =>
          if (k.bank n).owner = some s.mySlot then k.onBank n Bank.release else k) k) with
    check := fun s => [s.banksCheck (banksOf (s.srcG f.a)) fun b => b.owner == some s.mySlot] }
def execBrel (f : FA) (s : State) : Host.Outcome State Fault Refusal := runSlot (.brel f) (semBrel f) s

/-- BACQ (R49): waits until the launch owns every named bank. -/
def semBacq (f : FA) : OpSem :=
  OpSem.once { OpSem.plain (fun _ => true) [rG f.a] [] (fun s => s) with
    check := fun s =>
      [s.banksCheck (banksOf (s.srcG f.a)) fun b => b.owner == some s.mySlot || b.pending.contains s.mySlot,
        await ((banksOf (s.srcG f.a)).all fun n => (s.myCluster.bank n).owner == some s.mySlot)] }
def execBacq (f : FA) (s : State) : Host.Outcome State Fault Refusal := runSlot (.bacq f) (semBacq f) s

/-- The mode that BMODE names (R331). -/
def bankModeOf (q : BitVec 2) : BankMode := if q = 0 then .scratchpad else if q = 1 then .cache else .fifo

/-- A berth may switch a bank: in supervisor mode, or with its launch's ownership and BMODE grant (R147). -/
def State.maySwitch (s : State) (n : Nat) : Bool :=
  s.me.sup || ((s.myCluster.bank n).owner == some s.mySlot && (s.myCluster.bank n).bmodeGrant.contains s.mySlot)

/-- BMODE (R331). -/
def semBmode (f : FQA) : OpSem :=
  OpSem.once { OpSem.plain (fun _ => true) [rG f.a] []
      (fun s => s.onMyCluster fun k =>
        (banksOf (s.srcG f.a)).foldl (fun (k : Cluster) n => k.switchBank n (bankModeOf f.q)) k) with
    priv := fun s => if (banksOf (s.srcG f.a)).all s.maySwitch then none else some (s.trap tPriv 0x5E)
    check := fun s => [await ((banksOf (s.srcG f.a)).all fun n => !s.bankBusy s.clNum n)] }
def execBmode (f : FQA) (s : State) : Host.Outcome State Fault Refusal := runSlot (.bmode f) (semBmode f) s

/-! ## Descriptors (R350) -/

/-- The checks of the address of DSET and DGET. -/
def State.imageCheck (s : State) (a : Nat) : List Verdict :=
  [s.alignCheck a 64, s.bankCheck a 64, await (s.spadQuiet a 64)]

/-- The range checks of DSET in checked, test and recovery mode (R178). -/
def State.rangeCheck (s : State) (d : Desc) : Verdict :=
  let test (r : Option (Nat × Nat)) (scale : Nat) : Verdict :=
    match r with
    | some r => need (s.allocated r) (s.trap tDescInvalid (sub 1 (scale * 2 ^ 59 + r.1 % 2 ^ 56)))
    | none => .pass
  if s.iss.start.mode.toNat % 4 = 0 then .pass else (test d.range 0).andThen (test d.scaleRange 1)

/-- The checks of R170, trapping DESC_INVALID, SUB 0. -/
def State.descCheck (s : State) (d : Desc) : Verdict :=
  match d.bad with
  | some (w, b) => .trap (s.trap tDescInvalid (sub 0 (w + 8 * b)))
  | none => .pass

/-- DSET (R350): the image checked is the image taken, as it stands at the bundle's start (R290). -/
def semDset (f : FDset) : OpSem :=
  { OpSem.plain (fun s => s.predIs f.p 0) [rK f.p, rG f.a] []
      (fun s => (s.onMyCore fun k =>
        { k with d := Map.set k.d f.e.toNat (.ofNat 512 (s.startView (s.addr22 f.a) 64)) }).touchSpad
          s.iss.core s.iss.berth pQread false (s.addr22 f.a) 64) with
    check := fun s =>
      let a := s.addr22 f.a
      let d : Desc := .ofNat 512 (s.startView a 64)
      s.imageCheck a ++ [s.markCheck a, s.descCheck d, s.rangeCheck d] }
def execDset (f : FDset) (s : State) : Host.Outcome State Fault Refusal := runSlot (.dset f) (semDset f) s

/-- DGET (R350). -/
def semDget (f : FDset) : OpSem :=
  { OpSem.plain (fun s => s.predIs f.p 0) [rK f.p, rG f.a] []
      (fun s => if s.odd then s else s.writeSpad (s.addr22 f.a) 64 (s.desc f.e.toNat).toNat) with
    check := fun s => s.imageCheck (s.addr22 f.a) }
def execDget (f : FDset) (s : State) : Host.Outcome State Fault Refusal := runSlot (.dget f) (semDget f) s

/-! ## CHKQ (R335) -/

/-- The kind of sub-unit that a mismatch scores, by the unit that appended the first entry (R238). -/
def chkqKind (unit : Nat) : Nat := if unit = 1 then 1 else if unit = 2 then 2 else 0

/-- Whether two entries agree: every byte, without the last quarter where an entry holds an f6 tile (R383), and the sideband when
both are narrow. -/
def State.entriesAgree (s : State) (x y : Entry) : Bool :=
  let six : Bool := (s.queueDesc x.queue).fmt == narrowCode 2 || (s.queueDesc y.queue).fmt == narrowCode 2
  let n := 8 * (if six then (s.srcQ x.queue).esize * 3 / 4 else (s.srcQ x.queue).esize)
  bits (s.entryBytes x) 0 n == bits (s.entryBytes y) 0 n &&
    (!(s.queueDesc x.queue).narrow ||
      (s.myCluster.block (s.entryAddr x)).sideband == (s.myCluster.block (s.entryAddr y)).sideband)

/-- CHKQ (R335). DEDUCED (log 36). -/
def semChkq (f : FChkq) : OpSem :=
  let x := entry7 (f.x.setWidth 7)
  let y := entry7 (f.y.setWidth 7)
  { OpSem.plain (fun _ => true) [] []
      (fun s =>
        if s.entriesAgree x y then s
        else s.checkFails (chkqKind (s.myCluster.block (s.entryAddr x)).unit) 1) with
    check := fun s =>
      [s.distance x, s.distance y, s.entriesHere [x, y],
        need ((s.srcQ x.queue).esize == (s.srcQ y.queue).esize &&
          (s.queueDesc x.queue).narrow == (s.queueDesc y.queue).narrow) (s.queueTrap x.queue)]
    sources := fun _ => [x, y] }
def execChkq (f : FChkq) (s : State) : Host.Outcome State Fault Refusal := runSlot (.chkq f) (semChkq f) s

end Sys2Proof.Machine
end

