-- ==== Sys2Proof/Machine/Special.lean ====
section
/-! DEFINITION. Special registers: MFSR, MTSR and the configuration of buffer rings (R34, R56, R107, R144, R202, R235,
R240, R253, R262, R268 to R271, R302 to R307, R385 to R387), and the residual table that SR.ACCQ counts (R203). -/

namespace Sys2Proof.Machine

/-! ## The residual table (R45, R203) -/

/-- An entry of a residual table. -/
structure Residual where
  line : Nat
  age : Nat
  /-- 0 FREE, 1 HELD, 2 RIDING, 3 FORCED. -/
  state : Nat
  mark : Nat
  /-- 32 a64 values, lane 0 lowest. -/
  value : Nat
  deriving DecidableEq, Repr

/-- A berth's table stands in banks that its launch owns, in scratchpad mode (R48, R146). -/
def State.tableMine (s : State) (l : Launch) (c b : Nat) : Bool :=
  ((s.cluster (clusterOf c)).rangeError l.slot spadMode (l.resEntry c b 0) 4608).isNone

/-- An entry that holds nothing. -/
def Residual.free : Residual := { line := 0, age := 0, state := 0, mark := 0, value := 0 }

/-- Entry k of a berth's table in scratchpad; a table whose bank the launch does not have, or has no more, holds nothing.
DESIGN CHOICE (log 87). -/
def State.residual (s : State) (l : Launch) (c b k : Nat) : Residual :=
  let m := (s.cluster (clusterOf c)).spad
  let a := l.resEntry c b k
  if s.tableMine l c b then
    { line := bits (m.read a 8) 8 44, age := m.read (a + 8) 4, state := m.read (a + 12) 1, mark := m.read (a + 16) 4,
      value := m.read (a + 32) 256 }
  else .free

/-- The STATE of entry k, which is that of its residual. -/
def State.resState (s : State) (l : Launch) (c b k : Nat) : Nat :=
  if s.tableMine l c b then (s.cluster (clusterOf c)).spad.read (l.resEntry c b k + 12) 1 else 0

/-- An entry written, its reserved bytes with it (R3). -/
def State.putResidual (s : State) (l : Launch) (c b k : Nat) (r : Residual) : State :=
  let a := l.resEntry c b k
  if s.tableMine l c b then
    s.onSpad (clusterOf c) fun m =>
      ((((m.write a 8 (r.line * 256)).write (a + 8) 4 r.age).write (a + 12) 4 r.state).write (a + 16) 16 r.mark).write
        (a + 32) 256 r.value
  else s

/-- The entries of a table that are not FREE (R202). -/
def State.resOcc (s : State) (l : Launch) (c b : Nat) : Nat :=
  ((List.range 16).filter fun k => s.resState l c b k != 0).length

/-- A table holds a residual that has still to be sent. -/
def State.holdsResidual (s : State) (l : Launch) (c b : Nat) : Bool := (List.range 16).any fun k => s.resState l c b k == 1

/-- A launch has residual tables on a core, in service or retired under a task (R45, R61); those of a redundant pair are the even
member's (R248). -/
def Launch.hasTables (l : Launch) (c : Nat) : Bool := l.cores.contains c && (!l.redundant || c % 2 == 0)

/-! ## Capacity (R262) -/

/-- The units of some kinds that are retired, by index. -/
def State.retiredUnits (s : State) (kinds : List Nat) : List Nat :=
  ((s.records.filter fun r => kinds.contains r.kind).map Record.index).dedup

/-- The memory bands withdrawn (R259). -/
def State.bands (s : State) : Nat := (s.records.filter fun r => r.cause == 4).length

/-- SR.CAP (R262). -/
def State.cap (s : State) : Nat :=
  (1536 - (s.retiredUnits [0, 1, 2]).length) + (192 - (s.retiredUnits [3]).length) * 2 ^ 24 +
    (96 - (s.retiredUnits [4]).length) * 2 ^ 32 + (36 - (s.retiredUnits [6]).length) * 2 ^ 40 + s.bands * 2 ^ 48

/-! ## Reading (R386) -/

/-- The island of a cluster (R27). -/
def islandOf (cl : Nat) : Nat := 6 * dieOf cl + cl % 12 % 6 / 2 + 3 * (cl / 12 % 4 / 2)

/-- SR.CORE (R305). -/
def State.srCore (s : State) (c : Nat) : Nat :=
  bits s.ctrl.pkgnum.toNat 0 9 * 2 ^ 48 + islandOf (clusterOf c) * 2 ^ 32 + dieOf (clusterOf c) * 2 ^ 24 +
    clusterOf c * 2 ^ 16 + c % 16 * 2 ^ 12 + c

/-- SR.BERTH (R34). The register of a berth without a task holds the berth's number, where the rule gives 0 as its reset value.
DESIGN CHOICE (log 84). -/
def Berth.srBerth (x : Berth) (b : Nat) : Nat :=
  match x.task with
  | some t => t.ctxSlot * 2 ^ 28 + t.basePrio * 2 ^ 22 + t.effPrio * 2 ^ 20 + t.slot * 2 ^ 12 + b
  | none => b

/-- A network counter (R236); quays beyond 95 and counters beyond 0x0D read 0 (R235). -/
def State.counter (s : State) (quay i : Nat) : Nat :=
  if 96 ≤ quay ∨ 0x0E ≤ i then 0 else Map.getD s.counters (256 * quay + i) 0

/-- The state of a lease as SR.LEASE codes it (R307). -/
def State.leaseState (s : State) (kind index : Nat) : Nat := ((s.leaseOf kind index).map Lease.state).getD 0

/-- The value of a special register for berth b of core c (R303). -/
def State.readSr (s : State) (c b i : Nat) : Word :=
  let x := s.berth c b
  let r := x.regs
  let flag (f : Bool) (n : Nat) : Nat := if f then 2 ^ n else 0
  match i with
  | 0x000 => .ofNat 64 (flag x.chkl 3 + flag x.ltol 2 + flag x.red 1 + flag x.sup 0)
  | 0x001 => .ofNat 64 (x.srBerth b)
  | 0x002 => .ofNat 64 (s.srCore c)
  | 0x003 => r.mode
  | 0x004 => .ofNat 64 (r.count.toNat * 2 ^ 32 + r.bound.toNat)
  | 0x005 => r.chksb
  | 0x006 => r.flags.setWidth 64
  | 0x007 =>
    let occ := ((s.launch x.slot).map fun l => s.resOcc l c b).getD 0
    .ofNat 64 (occ * 2 ^ 32 + r.refused.toNat * 2 ^ 16 + r.quota.toNat)
  | 0x008 => .ofNat 64 (r.rewinds.toNat * 2 ^ 16 + flag r.retry 12 + r.entry.toNat)
  | 0x010 => r.cause
  | 0x011 => r.epc
  | 0x012 => r.einfo
  | 0x013 => (s.core c).tvec
  | 0x020 => (s.core c).cycle
  | 0x021 => .ofNat 64 s.cap
  | 0x022 => s.capgen.setWidth 64
  | 0x030 => x.ringcfg
  | 0x040 => x.netsel
  | 0x041 => .ofNat 64 (s.counter (bits x.netsel.toNat 8 8) (bits x.netsel.toNat 0 8))
  | 0x050 =>
    match x.lease with
    | some (k, n) => .ofNat 64 (s.leaseState k n * 2 ^ 32 + k * 2 ^ 24 + n)
    | none => 0
  | 0x051 =>
    let (k, n) := s.susp
    .ofNat 64 ((if n < unitCount k then s.score k n else 0) * 2 ^ 40 + k * 2 ^ 24 + n)
  | _ => 0

/-- The accesses that need supervisor mode (R303). -/
def supRead (i : Nat) : Bool := i == 0x050 || i == 0x051
def supWrite (i : Nat) : Bool :=
  [0x003, 0x004, 0x007, 0x008, 0x010, 0x011, 0x012, 0x013, 0x051].contains i

/-- Every V, M and U operation of the issuing berth has written its result (R145). -/
def State.flagsReady (s : State) : Bool :=
  (s.writebacks.all fun e => !(e.2.core == s.iss.core && e.2.berth == s.iss.berth)) &&
    (s.myCore.half0 ++ s.myCore.half1).all fun m => m.berth != s.iss.berth

/-- SR.EINFO after it has been read: LOST of an engine record is cleared; a trap record stays as it is (R271). -/
def readRecord (w : Word) : Word := if w.getLsbD 63 then w &&& 0xBFFFFFFFFFFFFFFF else w

/-- A special register as it stands when the issuing bundle issues (R290, R386). -/
def State.startSr (s : State) (i : Nat) : Word :=
  (s.onRegs fun _ => s.iss.start).readSr s.iss.core s.iss.berth i

/-- MFSR (R386). Reading SR.EINFO clears LOST after the value is taken (R271). -/
def semMfsr (f : FLidx) : OpSem :=
  { OpSem.plain (fun s => s.predIs f.p 0) [rK f.p] [(rG f.d, none)]
      (fun s =>
        let v := s.startSr f.i.toNat
        let s := if f.i = 0x012 then s.onMe fun b =>
            { b with regs := { b.regs with einfo := readRecord b.regs.einfo }, einfoUnread := false } else s
        s.bump.putG f.d v) with
    priv := fun s => if supRead f.i.toNat then s.supOnly 0x72 else none
    check := fun s => [await (f.i != 0x006 || s.flagsReady)] }
def execMfsr (f : FLidx) (s : State) : Host.Outcome State Fault Refusal := runSlot (.mfsr f) (semMfsr f) s

/-! ## Buffer rings (R107) -/

/-- The checks of a write of SR.RINGCFG by the issuing berth. -/
def State.ringcfgCheck (s : State) (w : Word) : Verdict :=
  let n := ringNo w
  let mine : Verdict :=
    match s.myCluster.ring n with
    | some r => need (r.owner == some s.mySlot) (s.trap tBankOwner (ringBaseOf r.cfg / bankSize))
    | none => .pass
  let reserved := bits w.toNat 55 2 != 0 || bits w.toNat 22 22 != 0
  mine.andThen
    (if ringEnable w then
      ((need (!reserved && decide (1 ≤ ringCount w) && decide (ringCount w ≤ 64) && decide (7 ≤ ringLog w))
        (s.ringTrap n)).andThen (s.alignCheck (ringBaseOf w) (2 ^ ringLog w))).andThen
        (s.bankCheck (ringBaseOf w) (ringCount w * 2 ^ ringLog w))
     else need (!reserved) (s.ringTrap n))

/-- The last value written to SR.RINGCFG by the issuing berth (R107). -/
def State.keepRingcfg (s : State) (w : Word) : State := s.onMe fun b => { b with ringcfg := w }

/-- The ring that a word names enabled for the issuing berth's launch: every buffer EMPTY, both counters 0. -/
def State.enableRing (s : State) (w : Word) : State :=
  (s.setRing s.clNum (ringNo w)
    { cfg := w, owner := some s.mySlot, states := List.replicate (ringCount w) .empty, producer := 0,
      consumer := 0, producers := [], consumers := [], times := [] }).keepRingcfg w

/-- The ring disabled: it belongs to no launch. -/
def State.disableRing (s : State) (w : Word) : State :=
  (s.onMyCluster fun k => { k with rings := Map.erase k.rings (ringNo w) }).keepRingcfg w

/-- A write of SR.RINGCFG (R107). -/
def State.writeRing (s : State) (w : Word) : State := if ringEnable w then s.enableRing w else s.disableRing w

/-- RINGCFG_ENABLE (R107): the write of an enabling word by the issuing berth. -/
def execRingcfgEnable (value : Word) (s : State) : Host.Outcome State Fault Refusal :=
  match s.ringcfgCheck value with
  | .pass => .next (if ringEnable value then s.enableRing value else s)
  | v => .next (s.refuseBundle v)

/-- RINGCFG_DISABLE (R107): the write of a disabling word by the issuing berth. -/
def execRingcfgDisable (value : Word) (s : State) : Host.Outcome State Fault Refusal :=
  match s.ringcfgCheck value with
  | .pass => .next (if ringEnable value then s else s.disableRing value)
  | v => .next (s.refuseBundle v)

/-! ## Writing (R387) -/

/-- A value of SR.EINFO with the reserved fields of an engine record, bits [61:56] and [42:40], zero (R3, R271); of a trap record every bit is
kept as written (R387), those too that R272 names for no code. DESIGN CHOICE (log 103). -/
def maskRecord (w : Word) : Word := if w.getLsbD 63 then w &&& 0xC0FFF8FFFFFFFFFF else w

/-- The write of a special register by the issuing berth; fields that its map does not name read as zero (R3). An engine
record that software writes counts as read. DESIGN CHOICE (log 103). -/
def State.writeSr (s : State) (i : Nat) (v : Word) : State :=
  match i with
  | 0x003 => s.onRegs fun x => { x with mode := v &&& 0x103 }
  | 0x004 => s.onRegs fun x => { x with bound := v.setWidth 32 }
  | 0x005 => s.onRegs fun x => { x with chksb := v &&& 1 }
  | 0x006 => s.onRegs fun x => { x with flags := v.setWidth 7 }
  | 0x007 => s.onRegs fun x => { x with quota := if v.setWidth 16 = (0 : BitVec 16) then 8 else v.setWidth 16 }
  | 0x008 =>
    s.onMe fun b =>
      { b with regs := { b.regs with retry := v.getLsbD 12, entry := v.setWidth 11 } }
  | 0x010 => s.onRegs fun x => { x with cause := v &&& 0x0FFF3FFF }
  | 0x011 => s.onRegs fun x => { x with epc := v &&& 0x7FF }
  | 0x012 => s.onMe fun b => { b with regs := { b.regs with einfo := maskRecord v }, einfoUnread := false }
  | 0x013 => if s.odd then s else s.onMyCore fun k => { k with tvec := v &&& 0x7FF }
  | 0x030 => if s.odd then s.keepRingcfg v else s.writeRing v
  | 0x040 => s.onMe fun b => { b with netsel := v &&& 0xFFFF }
  | 0x051 => { s with susp := (bits v.toNat 24 8, bits v.toNat 0 24) }
  | _ => s

/-- MTSR (R387). -/
def semMtsr (f : FMtsr) : OpSem :=
  { OpSem.plain (fun s => s.predIs f.p 0) [rK f.p, rG f.a] [] (fun s => s.writeSr f.i.toNat (s.srcG f.a)) with
    priv := fun s => if supWrite f.i.toNat then s.supOnly 0x73 else none
    check := fun s =>
      if f.i = 0x006 then [await s.flagsReady]
      else if f.i = 0x030 then [s.ringcfgCheck (s.srcG f.a)]
      else [] }
def execMtsr (f : FMtsr) (s : State) : Host.Outcome State Fault Refusal := runSlot (.mtsr f) (semMtsr f) s

end Sys2Proof.Machine
end

