-- ==== Sys2Proof/Machine/Matrix.lean ====
section
/-! DEFINITION. The matrix engine: products, promotion and residues (R129 to R136), the M-slot operations (R187, R298,
R318, R319, R388 to R394) and MATRIX_PROMOTION. -/

namespace Sys2Proof.Machine

/-! ## Elements and products (R130 to R136) -/

/-- The value of an element of a matrix operand format. -/
def elemValue (fmt x : Nat) : FVal :=
  match fmtOfCode fmt with
  | some (.float f) => f.value x
  | some (.int w true) => let n := signed x w; .num (decide (n < 0)) n.natAbs 0
  | some (.int _ false) => .num false x 0
  | _ => .num false 0 0

/-- The width of an element of a format code. -/
def fmtWidth (fmt : Nat) : Nat := ((fmtOfCode fmt).map Fmt.width).getD 8

/-- Element n of an entry's bytes (R119). -/
def entryElem (fmt bytes n : Nat) : FVal := elemValue fmt (bits bytes (fmtWidth fmt * n) (fmtWidth fmt))

/-- The chunk of a pairing: 32 for bf16 and f16, else 128 (R388). -/
def chunkOf (fmt : Nat) : Nat := if fmt = 1 ∨ fmt = 2 then 32 else 128

/-- The values of an N-code (R135). -/
def ncodeN (c : Nat) : Nat := 8 * (c + 1)

/-- The rank of bit k among the set bits of a mask. -/
def maskRank (mask k : Nat) : Nat := ((List.range k).filter fun i => bit mask i).length

/-- Element k of row i of a compressed entry (R391, R392): none where it is absent; and whether a set bit beyond the
N-th makes it so. -/
def compressedElem (fmt bytes i k : Nat) : Option FVal × Bool :=
  let row := bits bytes (1024 * i) 1024
  let g := k / 64
  let mask := bits row (64 * g) 64
  let n := ncodeN (bits row (8 * 127) 3)
  let m := maskRank mask (k % 64)
  if !bit mask (k % 64) then (none, false)
  else if n ≤ m then (none, true)
  else (some (elemValue fmt (bits row (128 + 384 * g + 8 * m) 8)), false)

/-- Element (i, k) of the first operand of an operation. -/
def MatrixOp.elemA (o : MatrixOp) (i k : Nat) : Option FVal × Bool :=
  if o.kind = 1 then compressedElem o.fmtA o.a i k
  else (some (entryElem o.fmtA o.a (i * chunkOf o.fmtA + k)), false)

/-- A product of the chunk, with the factors' exponents for the residue: significand, exponent. -/
structure Product where
  value : FVal
  flags : BitVec 7
  deriving DecidableEq, Repr

/-- The products of output element (i, j), absent ones removed, with the flags SNF and INVALID of R135 and R136. -/
def chunkProducts (o : MatrixOp) (b i j : Nat) : List Product × BitVec 7 :=
  (List.range (chunkOf o.fmtA)).foldl (fun (acc : List Product × BitVec 7) k =>
    let y := entryElem o.fmtB b (32 * k + j)
    match o.elemA i k with
    | (some x, _) =>
      let (v, f) := mulExact x y
      (acc.1 ++ [⟨v, f ||| anySignalling [x, y]⟩], acc.2)
    | (none, tooMany) =>
      let odd := match y with
        | .num .. => false
        | _ => true
      (acc.1, acc.2 ||| flagIf odd flagSnf ||| flagIf tooMany flagInvalid)) ([], 0)

/-- The window of a chunk of finite products (R130): E, W and whether a nonzero part was dropped. -/
structure WindowSum where
  e : Int
  w : Int
  dropped : Bool
  deriving DecidableEq, Repr

/-- The significand, with sign, and exponent of a finite product. -/
def FVal.parts : FVal → Int × Int
  | .num n m e => (if n then -(m : Int) else m, e)
  | _ => (0, 0)

/-- E of a chunk: the greatest Floor(Log2(|p|)), 0 if every product is zero. -/
def chunkE (l : List FVal) : Int :=
  let es := (l.filter fun v => v.parts.1 != 0).map fun v => (Nat.log2 v.parts.1.natAbs : Int) + v.parts.2
  match es with
  | [] => 0
  | e :: es => es.foldl max e

/-- Floor(p / ulp) of a product, and its position s in the window. -/
def windowTerm (e : Int) (v : FVal) : Int × Int :=
  let (m, x) := v.parts
  let s := x - (e - 71)
  (if 0 ≤ s then m * (2 ^ s.toNat : Nat) else m / (2 ^ (-s).toNat : Nat), s)

/-- W of a chunk. -/
def windowSum (l : List FVal) : WindowSum :=
  let e := chunkE l
  l.foldl (fun (t : WindowSum) v =>
    let (x, s) := windowTerm e v
    { t with
      w := t.w + x
      dropped := t.dropped || (decide (s < 0) && x * (2 ^ (-s).toNat : Nat) != v.parts.1) })
    ⟨e, 0, false⟩

/-- The residue of a chunk, from its significands (R133). -/
def residue (e : Int) (l : List FVal) : Int :=
  l.foldl (fun rho v =>
    let (m, x) := v.parts
    let s := x - (e - 71)
    let d := if 0 ≤ s then 0 else m - m / (2 ^ (-s).toNat : Nat) * (2 ^ (-s).toNat : Nat)
    (rho + (m - d) * (2 ^ (s % 7).toNat : Nat)) % 127) 0

/-- The chunk sum P (R130), with a disturbance of W by an upset; its flags, and the residue's mismatch (R133). -/
def chunkSum (l : List Product) (upset : Int) : FVal × BitVec 7 × Bool :=
  let vs := l.map Product.value
  let fl := l.foldl (fun f p => f ||| p.flags) 0
  let plus := vs.any fun v => match v with
    | .inf n => !n
    | _ => false
  let minus := vs.any fun v => match v with
    | .inf n => n
    | _ => false
  if vs.any FVal.isNan then (.nan false false, fl, false)
  else if plus && minus then (.nan false false, fl ||| flagInvalid, false)
  else if plus then (.inf false, fl, false)
  else if minus then (.inf true, fl, false)
  else
    let t := windowSum vs
    let w := t.w + upset
    (.num (decide (w < 0)) w.natAbs (t.e - 71), fl ||| flagIf t.dropped flagInexact, residue t.e vs != w % 127)

/-- Promotion (R130): Round(P·sa·sw + C, rn) to f32. -/
def promote (p : FVal) (sa sw : Nat) (c : Nat) : Result :=
  let (x, f1) := mulExact p (f32.value sa)
  let (y, f2) := mulExact x (f32.value sw)
  let (r, f3) := f32.add .rn y (f32.value c)
  (r, f1 ||| f2 ||| f3)

/-- One, as an f32 scale. -/
def oneScale : Nat := 0x3F800000

/-- The group of a row: its B bytes and sideband, if the row is covered (R187). -/
def groupOf (l : List (Nat × Nat × Nat)) (row : Nat) : Option (Nat × Nat) :=
  match l with
  | [] => none
  | (n, b, sc) :: l => if row < n then some (b, sc) else groupOf l (row - n)

/-- Output element (i, j) of a product, from the accumulator element c: the result, its flags and the residue's mismatch.
An upset disturbs element (0, 0). -/
def MatrixOp.element (o : MatrixOp) (upset : Int) (i j c : Nat) : Nat × BitVec 7 × Bool :=
  let c := if o.zero then 0 else c
  match groupOf o.groups i with
  | none => (c, 0, false)
  | some (b, scB) =>
    let (ps, f0) := chunkProducts o b i j
    let (p, f1, bad) := chunkSum ps (if i = 0 ∧ j = 0 then upset else 0)
    let scaled := narrowFmt o.fmtA
    let (r, f2) := promote p (if scaled then bits o.scaleA (32 * i) 32 else oneScale)
      (if scaled then bits scB 0 32 else oneScale) c
    (r, f0 ||| f1 ||| f2, bad)

/-! ## The half-arrays -/

/-- Half 0 for H0 and 1 for H1, auto resolved under the present hold (R298). -/
def State.halfOf (s : State) (h : BitVec 2) : Nat :=
  if h = 1 then 0
  else if h = 2 then 1
  else if s.myCore.hold = some s.iss.berth ∧ s.myCore.lastHalf = some 0 then 1 else 0

/-- The rows of a tile written whole in the open segment (R243). -/
def Berth.accWritten (b : Berth) (half : Nat) : BitVec 32 := if half = 0 then b.accWritten0 else b.accWritten1

def Berth.markWritten (b : Berth) (half : Nat) (rows : BitVec 32) : Berth :=
  if half = 0 then { b with accWritten0 := b.accWritten0 ||| rows }
  else { b with accWritten1 := b.accWritten1 ||| rows }

/-- ACC_LIVEIN in checked, test and recovery mode (R243, R304). -/
def State.liveIn (s : State) (half : Nat) : Verdict :=
  need (s.iss.start.mode.toNat % 4 == 0 ||
    ((s.myCore.hold == some s.iss.berth) && s.me.accWritten half == BitVec.allOnes 32)) (s.trap tAccLivein half)

/-- An operation without operands yet, of the issuing berth. -/
def State.newMatrixOp (s : State) (kind : Nat) : MatrixOp :=
  { kind := kind, berth := s.iss.berth, slot := s.iss.slot, fmtA := 0, fmtB := 0, zero := false,
    res := s.iss.start.mode.getLsbD 8, a := 0, scaleA := 0, addrA := none, addrB := none, groups := [], first := 0,
    rows := 0, mode := 0, dest := none, after := none, bundle := s.me.issued }

/-- An operation takes its place in a half-array's issue order (R130, R319); the berth takes hold (R32), and the rows that
the operation writes whole are recorded (R243). -/
def State.pushHalf (s : State) (half : Nat) (o : MatrixOp) (written : BitVec 32) : State :=
  let s := s.takeEngine
  ((s.onMyCore fun k =>
      { k.setHalfQ half (k.halfQ half ++ [o]) with lastHalf := some half }).onMe fun b =>
        b.markWritten half written).later (.matrixPromotion s.iss.core half 0)

/-- The whole sideband of a source entry. -/
def State.entrySideband (s : State) (e : Entry) : Nat := (s.myCluster.block (s.entryAddr e)).sideband

/-! ## Operand checks (R388) -/

/-- The formats of A and B operands, the tile and the entry size of each (R388). -/
def operandShape (isB : Bool) (fmt : Nat) : Option (Nat × Nat × Nat) :=
  match fmt with
  | 1 => some (5, 5, 2048)
  | 2 => some (5, 5, 2048)
  | 3 => if isB then some (7, 5, 4096) else some (5, 7, 4096)
  | 4 => if isB then some (7, 5, 4096) else some (5, 7, 4096)
  | 5 => if isB then some (7, 5, 4096) else some (5, 7, 4096)
  | 6 => if isB then some (7, 5, 2048) else some (5, 7, 2048)
  | 8 => if isB then some (7, 5, 4096) else some (5, 7, 4096)
  | _ => none

/-- The pairings of R129. -/
def pairing (a b : Nat) : Bool :=
  (3 ≤ a && a ≤ 6 && 3 ≤ b && b ≤ 6) || (a == 8 && b == 8) || (a == 1 && b == 1) || (a == 2 && b == 2)

/-- The check of an operand's descriptor, tile shape and entry size. A format that no operand has fails the pairing of R129
instead. DEDUCED (log 19). -/
def State.operandFits (s : State) (isB : Bool) (e : Entry) : Verdict :=
  let q := s.srcQ e.queue
  let d := s.queueDesc e.queue
  (need d.isSet (s.descTrap q.desc 0 (some e.queue))).andThen
    (match operandShape isB d.fmt with
      | none => .pass
      | some (r, c, n) =>
        need (d.trows == r && d.tcols == c && q.esize == n) (s.descTrap q.desc 2 (some e.queue)))

/-- The check of the pairing of two operands (R129). -/
def State.pairingCheck (s : State) (a b : Entry) : Verdict :=
  need (pairing (s.queueDesc a.queue).fmt (s.queueDesc b.queue).fmt) (s.descTrap (s.srcQ a.queue).desc 3 (some a.queue))

/-- The checks of a pair of operands after their distances: each, then their pairing (R129, R389). -/
def State.pairCheck (s : State) (a b : Entry) : Verdict :=
  ((s.operandFits false a).andThen (s.operandFits true b)).andThen (s.pairingCheck a b)

/-- All rows of a tile where the Z flag is set, none otherwise. -/
def zRows (z : BitVec 1) : BitVec 32 := if z = 1 then BitVec.allOnes 32 else 0

/-- A product of the issuing berth with its operands bound at issue (R389). -/
def State.product (s : State) (kind : Nat) (f : MF) (groups : List (Nat × Nat × Nat)) (fmtB : Nat) : MatrixOp :=
  let a := entry8 f.a
  { s.newMatrixOp kind with
    fmtA := (s.queueDesc a.queue).fmt, fmtB := fmtB, zero := f.z == 1, a := s.entryBytes a,
    scaleA := s.entrySideband a, groups := groups }

/-- The group of MMA and MMAS: every row, with one B entry. -/
def State.wholeGroup (s : State) (b : Entry) : List (Nat × Nat × Nat) := [(32, s.entryBytes b, s.entrySideband b)]

/-- The slot's operation on a half-array with its predicate and sources. -/
def matrixSem (p : BitVec 3) (n : BitVec 1) (check : State → List Verdict) (sources : State → List Entry)
    (appends : List Append) (effect : State → State) : OpSem :=
  { OpSem.plain (fun s => s.predIs p n) [rK p] [] effect with
    check := fun s => check s ++ [s.engineFree], sources := sources, appends := fun _ => appends }

/-- MMA (R389). -/
def semMma (f : MF) : OpSem :=
  let a := entry8 f.a
  let b := entry8 f.b
  matrixSem f.p f.n
    (fun s => [s.distance a, s.distance b, s.entriesHere [a, b], s.pairCheck a b,
      if f.z = 1 then .pass else s.liveIn (s.halfOf f.h)])
    (fun _ => [a, b]) []
    (fun s => s.pushHalf (s.halfOf f.h) (s.product 0 f (s.wholeGroup b) (s.queueDesc b.queue).fmt) (zRows f.z))
def execMma (f : MF) (s : State) : Host.Outcome State Fault Refusal := runSlot (.mma f) (semMma f) s

/-- The check of a compressed A entry (R391): its format, tile and size. -/
def State.compressedFits (s : State) (e : Entry) : Verdict :=
  let q := s.srcQ e.queue
  let d := s.queueDesc e.queue
  ((need d.isSet (s.descTrap q.desc 0 (some e.queue))).andThen
    (need (d.fmt == 3 || d.fmt == 4 || d.fmt == 8) (s.descTrap q.desc 1 (some e.queue)))).andThen
    (need (d.trows == 5 && d.tcols == 7 && q.esize == 4096) (s.descTrap q.desc 2 (some e.queue)))

/-- No row of a compressed entry has a reserved N-code (R392). -/
def ncodesValid (bytes : Nat) : Bool :=
  (List.range 32).all fun i => decide (bits bytes (1024 * i + 8 * 127) 3 ≤ 5)

/-- The check of the N-codes, once both entries are present (R392). -/
def State.ncodeCheck (s : State) (f : MF) : Verdict :=
  ((s.presence (entry8 f.a)).andThen (s.presence (entry8 f.b))).andThen
    (need (ncodesValid (s.entryBytes (entry8 f.a))) (s.trap tIllegalOpcode 2))

/-- MMAS (R392). -/
def semMmas (f : MF) : OpSem :=
  let a := entry8 f.a
  let b := entry8 f.b
  matrixSem f.p f.n
    (fun s => [s.distance a, s.distance b, s.entriesHere [a, b], (s.compressedFits a).andThen (s.pairCheck a b),
      if f.z = 1 then .pass else s.liveIn (s.halfOf f.h), s.ncodeCheck f])
    (fun _ => [a, b]) []
    (fun s => s.pushHalf (s.halfOf f.h) (s.product 1 f (s.wholeGroup b) (s.queueDesc b.queue).fmt) (zRows f.z))
def execMmas (f : MF) (s : State) : Host.Outcome State Fault Refusal := runSlot (.mmas f) (semMmas f) s

/-! ## MMAG (R187, R390) -/

/-- Group entry g of the table in z16 to z23: ROWS and BOFF, and whether a reserved bit is set. -/
def State.groupEntry (s : State) (g : Nat) : Nat × Nat × Bool :=
  let x := bits (s.srcZ (16 + g / 4)).toNat (16 * (g % 4)) 16
  (bits x 0 6, bits x 6 6, bits x 12 4 != 0)

/-- The first group of the table that fails (R187), from group g on with the rows before it. -/
def State.badGroup (s : State) (qb : Nat) : Nat → Nat → Nat → Option Nat
  | 0, _, _ => none
  | n + 1, g, rows =>
    let (r, o, reserved) := s.groupEntry g
    if reserved || decide (32 < r) || decide (32 < rows + r) || (r != 0 && decide (63 < qb + o)) then some g
    else s.badGroup qb n (g + 1) (rows + r)

/-- The nonempty groups: rows and the B entry of each. -/
def State.groups (s : State) (b : BitVec 8) : List (Nat × Entry) :=
  (((List.range 32).map s.groupEntry).filter fun x => x.1 != 0).map fun x =>
    (x.1, { queue := b.toNat / 64, offset := b.toNat % 64 + x.2.1 })

/-- The checks of MMAG, in its own order: the table, then the A entry and each group's B entry under R90, R174 and R129 (R390). -/
def State.mmagCheck (s : State) (f : MF) : List Verdict :=
  let a := entry8 f.a
  let table := match s.badGroup (f.b.toNat % 64) 32 0 0 with
    | some g => Verdict.trap (s.trap tGroupBounds g)
    | none => .pass
  let group (i : Nat) : List Verdict :=
    match (s.groups f.b)[i]? with
    | some g => [s.distance g.2, s.operandFits true g.2, s.pairingCheck a g.2]
    | none => [.pass, .pass, .pass]
  [table, s.distance a, s.operandFits false a] ++ ((List.range 32).map group).flatten ++
    [need (operandShape false (s.queueDesc a.queue).fmt).isSome (s.descTrap (s.srcQ a.queue).desc 1 (some a.queue)),
      if f.z = 1 then .pass else s.liveIn (s.halfOf f.h)]

/-- MMAG (R390). -/
def semMmag (f : MF) : OpSem :=
  matrixSem f.p f.n (fun s => s.mmagCheck f) (fun s => entry8 f.a :: (s.groups f.b).map Prod.snd) []
    (fun s => s.pushHalf (s.halfOf f.h)
      (s.product 2 f ((s.groups f.b).map fun g => (g.1, s.entryBytes g.2, s.entrySideband g.2))
        (s.queueDesc (f.b.toNat / 64)).fmt) (zRows f.z))
def execMmag (f : MF) (s : State) : Host.Outcome State Fault Refusal := runSlot (.mmag f) (semMmag f) s

/-! ## ACCR, ACCW, ACCZ, MTRN (R319, R394) -/

/-- A slot reserved for a result that is written when the operation takes effect (R92); to a SPLICED queue the append is
held, its bytes to follow. -/
def State.reserveResult (s : State) (n sideband unit : Nat) : State × Writeback :=
  let q := s.liveQ n
  match q.splice with
  | .spliced =>
    ((s.reserve n).onMe fun b =>
        { b with held := b.held ++ [.splicedAppend n q.remoteTail.toNat 0 sideband unit] },
      { s.flagsOnly 0 with queue := n, counter := q.remoteTail, sideband := sideband, unit := unit })
  | _ =>
    ((s.reserve n).overwrite (q.slotAddr q.tail) q.esize,
      { s.flagsOnly 0 with
        queue := n, counter := q.tail, addr := q.slotAddr q.tail, esize := q.esize, count := q.esize,
        sideband := sideband, setsPresence := true, unit := unit })

/-- The check that a queue accepts an append of its own entry size (R89, R99, R430). -/
def State.appendOk (s : State) (n : Nat) : Verdict := s.appendCheck n (s.srcQ n).esize

/-- The rows of an entry of n bytes in a format of w bits (R298). -/
def entryRows (n w : Nat) : Nat := n / (4 * w)

/-- The checks of ACCR. -/
def State.accrCheck (s : State) (f : FAccr) : Verdict :=
  let n := f.d.toNat
  let q := s.srcQ n
  let d := s.queueDesc n
  ((s.appendOk n).andThen (need d.isSet (s.descTrap q.desc 0 (some n)))).andThen
    (((need (decide (d.fmt ≤ 2) && decide (f.f.toNat + entryRows q.esize d.width ≤ 32)) (s.queueTrap n)).andThen
      (need (d.tileBytes == q.esize) (s.descTrap q.desc 2 (some n)))).andThen (s.liveIn (s.halfOf f.h)))

/-- ACCR (R319). -/
def semAccr (f : FAccr) : OpSem :=
  matrixSem f.p f.n (fun s => [s.accrCheck f]) (fun _ => []) [⟨f.d.toNat, 1⟩]
    (fun s =>
      let d := s.queueDesc f.d.toNat
      let (t, w) := s.reserveResult f.d.toNat onesSideband 2
      t.pushHalf (s.halfOf f.h)
        { s.newMatrixOp 3 with
          fmtA := d.fmt, first := f.f.toNat, rows := entryRows (s.srcQ f.d.toNat).esize d.width,
          mode := f.r.toNat, dest := some w } 0)
def execAccr (f : FAccr) (s : State) : Host.Outcome State Fault Refusal := runSlot (.accr f) (semAccr f) s

/-- The checks of ACCW: those of its queue operand first (R314). -/
def State.accwCheck (s : State) (f : FAccw) : List Verdict :=
  let e := entry8 f.a
  let q := s.srcQ e.queue
  let d := s.queueDesc e.queue
  [s.distance e, s.entriesHere [e], need d.isSet (s.descTrap q.desc 0 (some e.queue)),
    need (d.fmt == 0 && decide (f.f.toNat + q.esize / 128 ≤ 32)) (s.queueTrap e.queue),
    need (d.tileBytes == q.esize) (s.descTrap q.desc 2 (some e.queue))]

/-- The rows from f on, n of them, as bits. -/
def rowBits (f n : Nat) : BitVec 32 := .ofNat 32 ((2 ^ n - 1) * 2 ^ f)

/-- ACCW (R319). -/
def semAccw (f : FAccw) : OpSem :=
  let e := entry8 f.a
  matrixSem f.p f.n (fun s => s.accwCheck f) (fun _ => [e]) []
    (fun s =>
      let n := (s.srcQ e.queue).esize / 128
      s.pushHalf (s.halfOf f.h)
        { s.newMatrixOp 4 with a := s.entryBytes e, first := f.f.toNat, rows := n } (rowBits f.f.toNat n))
def execAccw (f : FAccw) (s : State) : Host.Outcome State Fault Refusal := runSlot (.accw f) (semAccw f) s

/-- ACCZ (R319). -/
def semAccz (f : FAccz) : OpSem :=
  matrixSem f.p f.n (fun _ => []) (fun _ => []) []
    (fun s => s.pushHalf (s.halfOf f.h) (s.newMatrixOp 5) (BitVec.allOnes 32))
def execAccz (f : FAccz) (s : State) : Host.Outcome State Fault Refusal := runSlot (.accz f) (semAccz f) s

/-- The 32 sideband values are equal. -/
def sidebandEqual (x : Nat) : Bool := (List.range 32).all fun i => bits x (32 * i) 32 == bits x 0 32

/-- The checks of MTRN: those of its queue operands first (R314), then its traps in the order in which R394 lists them. -/
def State.mtrnCheck (s : State) (f : FMtrn) : List Verdict :=
  let e := entry8 f.a
  let n := f.d.toNat
  let q := s.srcQ e.queue
  let d := s.queueDesc e.queue
  let t := s.queueDesc n
  [s.distance e, s.appendOk n, s.entriesHere [e],
    need (t.isSet && t.fmt == d.fmt && t.trows == d.tcols && t.tcols == d.trows && (s.srcQ n).esize == q.esize) (s.queueTrap n),
    if d.narrow then (s.presence e).andThen (need (sidebandEqual (s.entrySideband e)) (s.queueTrap e.queue)) else .pass,
    need d.isSet (s.descTrap q.desc 0 (some e.queue)), need (d.fmt != 0xE) (s.descTrap q.desc 1 (some e.queue)),
    need (d.tileBytes == q.esize) (s.descTrap q.desc 2 (some e.queue))]

/-- The bits of an entry with elements of w bits transposed: element (j, i) from element (i, j) of a tile of r rows and
c columns. -/
def transposed (w r c x : Nat) : Nat :=
  packElems w ((List.range (c * r)).map fun k => bits x (w * (k % r * c + k / r)) w)

/-- MTRN (R394). -/
def semMtrn (f : FMtrn) : OpSem :=
  let e := entry8 f.a
  matrixSem f.p f.n (fun s => s.mtrnCheck f) (fun _ => [e]) [⟨f.d.toNat, 1⟩]
    (fun s =>
      let d := s.queueDesc e.queue
      let (t, w) := s.reserveResult f.d.toNat (if d.narrow then s.entrySideband e else onesSideband) 2
      t.pushHalf (s.halfOf f.h)
        { s.newMatrixOp 6 with
          dest := some { w with bytes := transposed d.width d.rows d.cols (s.entryBytes e) } } 0)
def execMtrn (f : FMtrn) (s : State) : Host.Outcome State Fault Refusal := runSlot (.mtrn f) (semMtrn f) s

/-! ## MATRIX_PROMOTION (R130, R133, R134, R319) -/

/-- A tile's elements replaced, row by row, by the elements given. -/
def Core.putTile (k : Core) (tile : Nat) (l : List Nat) : Core :=
  (List.range 32).foldl (fun (k : Core) r => k.putAccRow tile r 0 ((l.drop (32 * r)).take 32)) k

/-- A matrix result on its way to its queue; to a SPLICED queue its bytes join the held append. -/
def State.sendMatrix (s : State) (c b : Nat) (w : Writeback) : State :=
  if w.esize = 0 then
    s.onBerth c b fun x => { x with held := x.held.map fun h => match h with
      | .splicedAppend q n old sb u => if q = w.queue ∧ n = w.counter.toNat ∧ old = 0 then
          .splicedAppend q n w.bytes sb u else h
      | _ => h }
  else ({ s.bump with writebacks := Map.set s.writebacks s.stamp w }).later (.resultWriteback s.stamp)

/-- The effect of a product on its tile: every element promoted, the flags merged, a residue mismatch scored and, with
RES, raised as an error of the rollback class (R130, R134). -/
def State.promoteTile (s : State) (c half : Nat) (o : MatrixOp) (upset : Int) : State :=
  let k := s.core c
  let l := (List.range 1024).map fun i =>
    o.element upset (i / 32) (i % 32) (k.accElem half (i / 32) (i % 32)).toNat
  let s := s.setCore c (k.putTile half (l.map fun x => x.1))
  let s := s.mergeFlags c o.berth (l.foldl (fun f x => f ||| x.2.1) 0)
  if l.any fun x => x.2.2 then
    let s := s.raiseScore 2 c 64
    if o.res then
      s.raiseError c o.berth { code := tResidue, slot := o.slot, timm := 0, info := half } false
    else s
  else s

/-- The rows of an ACCR converted (R319): the bytes of the entry and the flags. -/
def Core.readRows (k : Core) (half : Nat) (o : MatrixOp) : Nat × BitVec 7 :=
  let l := ((List.range o.rows).map fun r => k.accRow half (o.first + r)).flatten
  if o.fmtA = 0 then (packElems 32 l, 0)
  else
    let f := laneFloat o.fmtA
    let (x, fl) := mapLanes (fun v => f.convert (Rnd.ofCode o.mode) (f32.value v)) l
    (packElems f.width x, fl)

/-- The effect of an operation at the head of a half-array. -/
def State.halfEffect (s : State) (c half : Nat) (o : MatrixOp) (upset : Int) : State :=
  match o.kind with
  | 3 =>
    let (x, fl) := (s.core c).readRows half o
    let s := s.mergeFlags c o.berth fl
    match o.dest with
    | some w => s.sendMatrix c o.berth { w with bytes := x }
    | none => s
  | 4 => s.setCore c ((List.range o.rows).foldl (fun (k : Core) r =>
      k.putAccRow half (o.first + r) 0 (unpackElems 32 32 (bits o.a (1024 * r) 1024))) (s.core c))
  | 5 => s.setCore c ((s.core c).putTile half (List.replicate 1024 0))
  | 6 =>
    match o.dest with
    | some w => s.sendMatrix c o.berth w
    | none => s
  | _ => s.promoteTile c half o upset

/-- MATRIX_PROMOTION (R130): the half-array completes the operation at its head, unless it waits for the bytes of a
CPYM (R186). An upset disturbs a chunk's window sum (R133). DESIGN CHOICE (log 66). -/
def State.promotion (s : State) (c half : Nat) (upset : Int) : State :=
  match (s.core c).halfQ half with
  | [] => s
  | o :: l =>
    if o.addrA.isSome || o.addrB.isSome then s
    else
      let s := s.halfEffect c half o upset
      let s := (s.setCore c ((s.core c).setHalfQ half l)).endHold c
      if l.isEmpty then s else s.later (.matrixPromotion c half 0)
def execMatrixPromotion (core half : Nat) (upset : Int) (s : State) : Host.Outcome State Fault Refusal :=
  .next (s.promotion core half upset)

end Sys2Proof.Machine
end

