-- ==== Sys2Proof/Machine/Pack.lean ====
section
/-! DEFINITION. The pack unit: UNPK, PACK, PSCL, SPMX and SPEX (R120, R128, R135, R398, R399, R404, R422 to R424, R434,
R435). -/

namespace Sys2Proof.Machine

/-- The format of a narrow field (R120). -/
def narrowFmtOf (m : Nat) : Fmt := (fmtOfCode (narrowCode m)).getD (.float f8e4)

/-- The descriptor code of a wide field (R120). -/
def wideCode (w : Nat) : Nat := if w = 3 then 0xA else w

/-- A four-bit narrow format: f4 and s4. -/
def fourBit (m : Nat) : Bool := m == 3 || m == 6

/-- The check of a queue that holds narrow entries: 128 bytes, the format, and the tile of R398. -/
def State.narrowCheck (s : State) (q m : Nat) : Verdict :=
  let d := s.queueDesc q
  need (d.isSet && d.fmt == narrowCode m && d.trows == (if fourBit m then 1 else 0) && d.tcols == 7 &&
    (s.srcQ q).esize == 128) (s.queueTrap q)

/-- The pack unit's operation with its predicate, checks, sources and appends. -/
def packSem (p : BitVec 3) (n : BitVec 1) (check : State → List Verdict) (sources : List Entry)
    (appends : State → List Append) (effect : State → State) : OpSem :=
  { OpSem.plain (fun s => s.predIs p n) [rK p] [] effect with
    check := check, sources := fun _ => sources, appends := appends }

/-- The results and the merged flags of a list of elements, packed at w bits each. -/
def packResults (w : Nat) (l : List Result) : Nat × BitVec 7 :=
  let (x, f) := collect l
  (packElems w x, f)

/-! ## UNPK (R434, R435) -/

/-- An element widened: x·s rounded once, or an integer of s32 unscaled. -/
def unpkElem (f : UP) (scale x : Nat) : Result :=
  let v := elemValue (narrowCode f.m.toNat) x
  match wideFmt f.w.toNat with
  | .float g =>
    let (p, f1) := mulExact v (f32.value scale)
    let (r, f2) := g.roundVal (Rnd.ofCode f.r.toNat) p
    (r, f1 ||| f2)
  | _ => (lowBits v.parts.1 32, 0)

/-- The lanes of the k-th entry that UNPK appends. -/
def State.unpkEntry (s : State) (f : UP) (k : Nat) : Nat × BitVec 7 :=
  let e := entry7 f.s
  let w := (narrowFmtOf f.m.toNat).width
  let l := laneCount f.w.toNat
  packResults (laneWidth f.w.toNat) ((List.range l).map fun i =>
    unpkElem f (s.entryScale e f.h.toNat) (bits (s.entryBytes e) (w * (128 * f.h.toNat + l * k + i)) w))

/-- The entries appended, and their flags merged with the last (R145). -/
def State.unpkAppend (s : State) (f : UP) : State :=
  let l := (List.range (packEntries f.w.toNat)).map fun k => s.unpkEntry f k
  let flags := l.foldl (fun t x => t ||| x.2) 0
  let n := l.length
  (l.zipIdx).foldl (fun (s : State) x =>
    s.appendEntry f.d.toNat x.1.1 onesSideband 1 (if x.2 + 1 = n then flags else 0)) s

/-- UNPK (R435). -/
def semUnpk (f : UP) : OpSem :=
  let e := entry7 f.s
  packSem f.p f.n
    (fun s =>
      [s.sourceCheck e 128, s.entriesHere [e], s.narrowCheck e.queue f.m.toNat,
        s.appendsCheck f.d.toNat 128 (packEntries f.w.toNat),
        need ((s.queueDesc f.d.toNat).isSet && (s.queueDesc f.d.toNat).fmt == wideCode f.w.toNat) (s.queueTrap f.d.toNat)])
    [e] (fun _ => [⟨f.d.toNat, packEntries f.w.toNat⟩]) (fun s => s.unpkAppend f)
def execUnpk (f : UP) (s : State) : Host.Outcome State Fault Refusal := runSlot (.unpk f) (semUnpk f) s

/-! ## PACK (R398, R399) -/

/-- A value converted to an element format (R125, R126). -/
def Fmt.convert (f : Fmt) (mode : Rnd) (v : FVal) : Result :=
  match f with
  | .float g => g.convert mode v
  | .int w sgn => let (n, fl) := intConvert w sgn mode v; (lowBits n w, fl)
  | .a64 => (0, 0)

/-- An exact nonzero quotient converted, with one rounding (R128). -/
def Fmt.convertExact (f : Fmt) (mode : Rnd) (x : Exact) : Result :=
  match f with
  | .float g => g.narrow mode x
  | .int w sgn => let (n, fl) := intConvertExact w sgn mode x; (lowBits n w, fl)
  | .a64 => (0, 0)

/-- The element that PACK writes for x and a scale (R399). A NaN carries the sign of the NaN operand, x before the scale
(log 20). -/
def packElem (f : Fmt) (mode : Rnd) (x s : FVal) : Result :=
  let with_ (fl : BitVec 7) (r : Result) : Result := (r.1, fl ||| r.2)
  match x, s with
  | .nan n _, _ => with_ (anySignalling [x, s]) (f.convert mode (.nan n false))
  | _, .nan n _ => with_ (anySignalling [x, s]) (f.convert mode (.nan n false))
  | .inf _, .inf _ => with_ flagInvalid (f.convert mode (.nan false false))
  | .inf n, .num n' _ _ => f.convert mode (.inf (n != n'))
  | .num n _ _, .inf n' => f.convert mode (.num (n != n') 0 0)
  | .num n m e, .num n' m' e' =>
    if m' = 0 then
      (if m = 0 then with_ flagInvalid (f.convert mode (.nan false false)) else f.convert mode (.inf (n != n')))
    else if m = 0 then f.convert mode (.num (n != n') 0 0)
    else f.convertExact mode ⟨n != n', m, m', e - e'⟩

/-- The entry that holds the scale of a PACK: after those of its elements. -/
def packScaleEntry (f : UP) : Entry := { (entry7 f.s) with offset := (entry7 f.s).offset + packEntries f.w.toNat }

/-- The entries that a PACK reads: its elements', then its scale's. -/
def packSources (f : UP) : List Entry :=
  ((List.range (packEntries f.w.toNat)).map fun k =>
    ({ (entry7 f.s) with offset := (entry7 f.s).offset + k } : Entry)) ++ [packScaleEntry f]

/-- The scale of a PACK: f32 lane 0 of its entry. -/
def State.packScale (s : State) (f : UP) : Nat := s.entryBytes (packScaleEntry f) % 2 ^ 32

/-- The elements of a PACK with their flags. -/
def State.packedElems (s : State) (f : UP) : Nat × BitVec 7 :=
  let g := narrowFmtOf f.m.toNat
  let xs := (((packSources f).take (packEntries f.w.toNat)).map fun e =>
    unpackElems (laneWidth f.w.toNat) (laneCount f.w.toNat) (s.entryBytes e)).flatten
  packResults g.width (xs.map fun x =>
    packElem g (Rnd.ofCode f.r.toNat) (elemValue (wideCode f.w.toNat) x) (f32.value (s.packScale f)))

/-- The pending mark of PACK set or cleared. -/
def State.markPack (s : State) (n : Nat) (b : Bool) : State :=
  s.onRegs fun x => x.putQ n { x.queue n with packPending := b }

/-- The result of a PACK on its way (R399). -/
def State.packAppend (s : State) (f : UP) : State :=
  let n := f.d.toNat
  let (x, fl) := s.packedElems f
  let c := s.packScale f
  let sb (i : Nat) : Nat := setBits onesSideband (32 * i) 32 c
  if !fourBit f.m.toNat then s.appendEntry n x (sb 0) 1 fl
  else if f.h = 0 then (s.appendPart n 0 64 x (sb 0) true false fl).markPack n true
  else (s.appendPart n 64 64 x (sb 1) false true fl).markPack n false

/-- PACK (R398, R399). -/
def semPack (f : UP) : OpSem :=
  let n := f.d.toNat
  packSem f.p f.n
    (fun s =>
      ((packSources f).map fun e => s.sourceCheck e 128) ++
        [if f.h = 0 then s.appendCheck n 128 else .pass, s.entriesHere (packSources f), s.narrowCheck n f.m.toNat,
          need (!fourBit f.m.toNat || (s.srcQ n).packPending == (f.h == 1)) (s.queueTrap n),
          if f.h = 0 then .pass else s.pendingCheck n])
    (packSources f) (fun _ => if f.h = 0 then [⟨n, 1⟩] else []) (fun s => s.packAppend f)
def execPack (f : UP) (s : State) : Host.Outcome State Fault Refusal := runSlot (.pack f) (semPack f) s

/-! ## PSCL (R404) -/

/-- Q of a narrow format: its largest finite magnitude. -/
def psclQ (m : Nat) : Nat :=
  match m with
  | 0 => 448
  | 1 => 57344
  | 2 => 28
  | 3 => 6
  | 4 => 127
  | 5 => 255
  | _ => 7

/-- The scale that PSCL derives. -/
def psclScale (m : Nat) (v : FVal) : Result :=
  match v with
  | .nan _ _ => (f32.canonicalNaN, flagInvalid)
  | .inf _ => (f32.infinity false, 0)
  | .num _ x e => if x = 0 then (oneScale, 0) else f32.arith .ru ⟨false, x, psclQ m, e⟩

/-- PSCL (R404). -/
def semPscl (f : UPscl) : OpSem :=
  let e := entry7 f.s
  packSem f.p f.n (fun s => [s.sourceCheck e 128, s.appendCheck f.d.toNat 128]) [e]
    (fun _ => [⟨f.d.toNat, 1⟩])
    (fun s =>
      let (c, fl) := psclScale f.m.toNat
        (elemValue (wideCode f.w.toNat) (s.entryBytes e % 2 ^ laneWidth f.w.toNat))
      s.appendEntry f.d.toNat (packElems 32 (List.replicate 32 c)) onesSideband 1 fl)
def execPscl (f : UPscl) (s : State) : Host.Outcome State Fault Refusal := runSlot (.pscl f) (semPscl f) s

/-! ## SPMX and SPEX (R422 to R424) -/

/-- The order of magnitudes in which SPMX keeps elements: a NaN above every number. -/
def spmxKey (m x : Nat) : Nat :=
  if m = 4 then (signed x 8).natAbs
  else
    let k := x % 128
    if (if m = 0 then k = 127 else 124 < k) then 256 else k

/-- Whether element k of a group of 64 is among the n kept. -/
def spmxKept (m n : Nat) (l : List Nat) (k : Nat) : Bool :=
  let key (j : Nat) : Nat := spmxKey m (l.getD j 0)
  decide (((List.range 64).filter fun j => decide (key k < key j) || (key j == key k && decide (j < k))).length < n)

/-- A group compressed: its mask, its values as bytes, and whether an element that is no zero was dropped. -/
def spmxGroup (m n : Nat) (l : List Nat) : Nat × Nat × Bool :=
  let kept := (List.range 64).map fun k => spmxKept m n l k
  (packElems 1 (kept.map fun b => if b then 1 else 0),
    packElems 8 (((List.range 64).filter fun k => kept.getD k false).map fun k => l.getD k 0),
    (List.range 64).any fun k => !(kept.getD k false) && spmxKey m (l.getD k 0) != 0)

/-- A row compressed (R391, R423), and the flag INEXACT. -/
def spmxRow (m ncode bytes : Nat) : Nat × BitVec 7 :=
  let g (i : Nat) : Nat × Nat × Bool := spmxGroup m (ncodeN ncode) (unpackElems 8 64 (bits bytes (512 * i) 512))
  ((g 0).1 + (g 1).1 * 2 ^ 64 + (g 0).2.1 * 2 ^ 128 + (g 1).2.1 * 2 ^ 512 + ncode * 2 ^ 1016,
    flagIf ((g 0).2.2 || (g 1).2.2) flagInexact)

/-- SPMX's destination is of 4 KiB entries (R423). -/
def State.spmxTall (s : State) (q : Nat) : Bool := (s.srcQ q).esize == 4096

/-- The check of SPMX's destination. -/
def State.spmxDest (s : State) (f : USp) : Verdict :=
  let n := f.d.toNat
  let d := s.queueDesc n
  if s.spmxTall n then
    (if (s.srcQ n).rowCount = 0 then s.appendCheck n 4096 else s.pendingCheck n).andThen
      (need (d.isSet && d.fmt == narrowCode f.m.toNat && d.trows == 5 && d.tcols == 7) (s.queueTrap n))
  else s.appendCheck n 128

/-- The row of an SPMX on its way. -/
def State.spmxAppend (s : State) (f : USp) : State :=
  let n := f.d.toNat
  let e := entry7 f.s
  let (x, fl) := spmxRow f.m.toNat f.c.toNat (s.entryBytes e)
  let c := (s.srcQ n).rowCount
  let sb (i : Nat) : Nat := setBits onesSideband (32 * i) 32 (s.entryScale e 0)
  if s.spmxTall n then
    (s.appendPart n (128 * c) 128 x (sb c) (c == 0) (c == 31) fl).onRegs fun r =>
      r.putQ n { r.queue n with rowCount := (c + 1) % 32 }
  else s.appendEntry n x (sb 0) 1 fl

/-- SPMX (R423). -/
def semSpmx (f : USp) : OpSem :=
  let e := entry7 f.s
  packSem f.p f.n
    (fun s => [s.sourceCheck e 128, s.entriesHere [e], s.narrowCheck e.queue f.m.toNat, s.spmxDest f]) [e]
    (fun s => if s.spmxTall f.d.toNat ∧ (s.srcQ f.d.toNat).rowCount ≠ 0 then [] else [⟨f.d.toNat, 1⟩])
    (fun s => s.spmxAppend f)
def execSpmx (f : USp) (s : State) : Host.Outcome State Fault Refusal := runSlot (.spmx f) (semSpmx f) s

/-- Element k of a compressed row: its byte, 0 where it is absent, and whether a set bit beyond the N-th makes it so. -/
def spexElem (n row k : Nat) : Nat × Bool :=
  let g := k / 64
  let mask := bits row (64 * g) 64
  let m := maskRank mask (k % 64)
  if !bit mask (k % 64) then (0, false)
  else if n ≤ m then (0, true)
  else (bits row (128 + 384 * g + 8 * m) 8, false)

/-- SPEX (R424). -/
def semSpex (f : USp) : OpSem :=
  let e := entry7 f.s
  let n := f.d.toNat
  packSem f.p f.n
    (fun s => [s.sourceCheck e 128, s.appendCheck n 128, s.entriesHere [e], s.narrowCheck e.queue f.m.toNat,
      s.narrowCheck n f.m.toNat]) [e]
    (fun _ => [⟨n, 1⟩])
    (fun s =>
      let l := (List.range 128).map fun k => spexElem (ncodeN f.c.toNat) (s.entryBytes e) k
      s.appendEntry n (packElems 8 (l.map Prod.fst)) (setBits onesSideband 0 32 (s.entryScale e 0)) 1
        (flagIf (l.any Prod.snd) flagInvalid))
def execSpex (f : USp) (s : State) : Host.Outcome State Fault Refusal := runSlot (.spex f) (semSpex f) s

end Sys2Proof.Machine
end

