-- ==== Sys2Proof/Machine/Engine.lean ====
section
/-! DEFINITION. The E-slot commands as they issue: CPY, CPYT, CPYM, LDQ, STQ, GATH, SCAT, PREF, PIN, UNPN, ACCH, FLUSHR,
XST, SUBS, RETS, COLL (R179 to R186, R299, R315 to R317, R337 to R343, R363, R366, R367, R374, R401, R412, R417, R418,
R426, R429 to R431, R436, R439, R440). What they do as they run stands in EngineRun. -/

namespace Sys2Proof.Machine

/-! ## Commands -/

/-- A command of the issuing berth, held by its segment (R241). -/
def State.newCommand (s : State) (op path : Nat) (w : Work) : Command :=
  { core := s.iss.core, berth := s.iss.berth, slot := s.mySlot, task := (s.me.task.map Task.uid).getD 0, op := op,
    path := path, work := w, sync := none, rel := none, append := none, needCrit := false, needMs := false, held := true,
    push := none, done := 0, checked := false, gens := [], suspended := false, marked := false, tainted := [],
    pts := s.ptsOf s.iss.core s.iss.berth path, maxTs := 0, flags := 0, sent := false, dropped := [], lost := false,
    begun := [], frames := [], order := s.stamp, unread := [] }

/-- The absolute counter of a source entry of the bundle (R87, R186). -/
def State.boundCounter (s : State) (e : Entry) : BitVec 16 := (s.srcQ e.queue).head + .ofNat 16 e.offset

/-- A source entry that a command is to read after its release (R94). -/
def State.source (s : State) (e : Entry) : Source :=
  { queue := e.queue, counter := s.boundCounter e, addr := s.entryAddr e, size := (s.srcQ e.queue).esize }

/-- The commands of the members of a redundant pair agree: command word, staging block and source entry (R249). -/
def Command.agrees (k k' : Command) : Bool :=
  k.op == k'.op && k.work == k'.work && k.sync == k'.sync && k.rel == k'.rel && k.append == k'.append &&
    k.push == k'.push && k.needCrit == k'.needCrit && k.needMs == k'.needMs && k.flags == k'.flags &&
    k.unread == k'.unread

/-- A command's reads of source entries, on its own path (R188, R194). -/
def State.readFor (s : State) (k : Command) (l : List Source) : State × Command :=
  l.foldl (fun (x : State × Command) e =>
    let (t, ts) := x.1.stampSpad (clusterOf k.core) false k.pts e.addr e.size
    (t, { x.2 with maxTs := max x.2.maxTs ts })) (s, k)

/-- A command recorded under a new number, and for the comparison of a redundant pair, of which the even member's alone is performed
(R249). -/
def State.record (s : State) (k : Command) : State :=
  if s.odd then s.onMe fun b => { b with segE := b.segE ++ [k] }
  else
    ({ s.bump with commands := Map.set s.commands s.stamp k }).onMe fun b =>
      { b with lastE := some s.stamp, segE := b.segE ++ [k] }

/-- A command held until commit (R241). -/
def State.holdCommand (s : State) (k : Command) : State :=
  if s.odd then s.record k else (s.record k).hold (.command s.stamp)

/-- A command that reads its source entry as it issues, held until commit (R316, R338; log 21). -/
def State.holdReading (s : State) (k : Command) (e : Entry) : State :=
  let (t, k) := s.readFor k [s.source e]
  t.holdCommand k

/-- A command that proceeds at issue (R241). -/
def State.startCommand (s : State) (k : Command) : State :=
  if s.odd then s.record k else (s.record { k with held := false }).later (.engineGranuleCheck s.stamp)

/-- An operation of the E slot; the check of its sync word is common to the slot and comes first (R48, R314). -/
def engineSem (p : BitVec 3) (n : BitVec 1) (w : BitVec 4) (check : State → List Verdict) (sources : State → List Entry)
    (appends : State → List Append) (effect : State → State) : OpSem :=
  { OpSem.plain (fun s => s.predIs p n) (rK p :: (if w = 0 then [] else [(0, 16 + w.toNat)])) [] effect with
    check := fun s => s.syncWordCheck w :: check s, sources := sources, appends := appends }

/-- The check that fields (bit, length) of a staging register are zero. -/
def State.zeroFields (s : State) (z : Nat) (l : List (Nat × Nat)) : Verdict :=
  allChecks (l.map fun f => s.zeroField z f.1 f.2)

/-! ## CPY and CPYT (R180 to R182, R340, R341) -/

/-- Bits of a staging register. -/
def State.zBits (s : State) (z lo len : Nat) : Nat := bits (s.srcZ z).toNat lo len

/-- NDIM, and π(j) of a CPYT (R180). -/
def State.copyDims (s : State) (b : Nat) : Nat := s.zBits (b + 2) 0 3
def State.copyPerm (s : State) (b : Nat) (transposes : Bool) (j : Nat) : Nat :=
  if transposes then s.zBits (b + 2) (8 + 3 * j) 3 else j

/-- The checks of a copy's staging block: reserved fields and encodings, and the permutation (R180, R181), whose fields for dimensions
beyond NDIM are ignored. DESIGN CHOICE (log 102). -/
def State.copyBlock (s : State) (b : Nat) (transposes : Bool) : Verdict :=
  let n := s.copyDims b
  let space (z : Nat) : Verdict := s.zeroFields z [(60, 4), (57, 3)]
  allChecks [s.blockFits b 4, space b, space (b + 1),
    s.zeroFields (b + 2) ([(38, 26), (26, 6)] ++ (if transposes then [] else [(8, 18)]) ++ [(5, 3)]),
    need (decide (1 ≤ n) && decide (n ≤ 6)) (s.stagingTrap (b + 2) 0),
    s.blockFits b (2 * n + 4),
    allChecks ((List.range n).map fun j => s.zeroField (b + 5 + 2 * j) 56 8),
    need ((List.range n).all fun i => (List.range n).any fun j => s.copyPerm b transposes j == i)
      (s.stagingTrap (b + 2) 8)]

/-- The address in a register that names a space: of scratchpad bits [21:0], the bits up to [55] being ignored, else [55:0] (R180).
DESIGN CHOICE (log 102). -/
def State.spaceAddr (s : State) (z : Nat) : Bool × Nat :=
  let spad := s.zBits z 56 1 == 1
  (spad, s.zBits z 0 (if spad then 22 else 56))

/-- The nest that a staging block lays down. -/
def State.copyNest (s : State) (f : ECpy) (transposes : Bool) : CopyNest :=
  let b := f.b.toNat
  let (ss, src) := s.spaceAddr b
  let (ds, dst) := s.spaceAddr (b + 1)
  { srcSpad := ss, src := src, dstSpad := ds, dst := dst, esz := 2 ^ s.zBits (b + 2) 3 2,
    padv := (s.srcZ (b + 3)).toNat, padu := f.u == 1,
    dims := (List.range (s.copyDims b)).map fun j =>
      let i := s.copyPerm b transposes j
      { count := s.zBits (b + 5 + 2 * i) 0 24, padlo := s.zBits (b + 5 + 2 * j) 24 16,
        padhi := s.zBits (b + 5 + 2 * j) 40 16, sstr := signed (s.zBits (b + 4 + 2 * i) 0 32) 32,
        dstr := signed (s.zBits (b + 4 + 2 * j) 32 32) 32 } }

/-- SOURCE, DEST and every stride are multiples of ESZ (R341); of a stride ALIGN records the low 56 bits. DESIGN CHOICE (log 102). -/
def State.copyAligned (s : State) (n : CopyNest) : Verdict :=
  let strides := (n.dims.map fun d => [d.sstr, d.dstr]).flatten
  allChecks (([(n.src : Int), (n.dst : Int)] ++ strides).map fun (x : Int) =>
    need (x % n.esz == 0) (s.trap tAlign (sub 1 (lowBits x 56))))

/-- BANK_OWNER for the scratchpad ranges of a command (R48, R341). -/
def State.rangesCheck (s : State) (l : List (Nat × Nat)) : Verdict :=
  match s.myCluster.rangesError s.mySlot engineMode l with
  | some info => .trap (s.trap tBankOwner info)
  | none => .pass

/-- A scratchpad byte lies in a FIFO-mode bank. -/
def Cluster.inFifo (k : Cluster) (a : Nat) : Bool := (k.bank (a / bankSize)).mode == .fifo && decide (a < spadSize)

/-- The bytes that a command writes into a FIFO-mode bank. -/
def Cluster.fifoBytes (k : Cluster) (l : List Xfer) (n : Nat) : Nat :=
  l.foldl (fun t x => match x.dst with
    | .spad b => if k.inFifo (b / 8) && b / 8 / bankSize == n then t + x.width / 8 else t
    | _ => t) 0

/-- The FIFO-mode banks of a cluster. -/
def Cluster.fifoBanks (k : Cluster) : List Nat := (List.range 32).filter fun n => (k.bank n).mode == .fifo

/-- A write to a FIFO-mode bank is a multiple of 128 bytes (R150). -/
def State.fifoCheck (s : State) (n : CopyNest) : Verdict :=
  need (s.myCluster.fifoBanks.all fun b => s.myCluster.fifoBytes n.xfers b % 128 == 0) (s.trap tAlign (sub 1 n.dst))

/-- The same of the result of a COLL, whose size is a multiple of 128 bytes: one that begins within a block may not end in
another bank. -/
def State.fifoRange (s : State) (a n : Nat) : Verdict :=
  need (a % 128 == 0 || a / bankSize == (a + n - 1) / bankSize ||
    !(s.myCluster.inFifo a || s.myCluster.inFifo (a + n - 1))) (s.trap tAlign (sub 1 a))

/-- Whether two places of some bits share a byte (R182). -/
def Place.meets (p : Place) (w : Nat) (q : Place) (v : Nat) : Bool :=
  match p, q with
  | .virt a, .virt b => decide (a / 8 ≤ (b + v - 1) / 8) && decide (b / 8 ≤ (a + w - 1) / 8)
  | .spad a, .spad b => decide (a / 8 ≤ (b + v - 1) / 8) && decide (b / 8 ≤ (a + w - 1) / 8)
  | _, _ => false

/-- A byte that a copy may read is one that it may write (R182). -/
def overlaps (l : List Xfer) : Bool :=
  l.any fun x => match x.src with
    | some p => l.any fun y => p.meets x.width y.dst y.width
    | none => false

/-- The exact in-place transpose of a square tile that R182 excepts. -/
def CopyNest.inPlace (n : CopyNest) (perm : List Nat) : Bool :=
  n.srcSpad == n.dstSpad && n.src == n.dst && perm == [1, 0] &&
    (match n.dims with
      | [d, e] => d.count == e.count && d.sstr == e.dstr && e.sstr == d.dstr &&
          d.padlo == 0 && d.padhi == 0 && e.padlo == 0 && e.padhi == 0
      | _ => false)

/-- COPY_OVERLAP of a CPYT (R182). -/
def State.overlapCheck (s : State) (f : ECpy) (n : CopyNest) : Verdict :=
  let perm := (List.range (s.copyDims f.b.toNat)).map fun j => s.copyPerm f.b.toNat true j
  need (n.inPlace perm || !overlaps n.xfers) (s.trap tCopyOverlap 0)

/-- The buffer that a copy releases: its ring and address (R179). -/
def State.copyRel (s : State) (f : ECpy) (n : CopyNest) : Option (Nat × Nat) :=
  if f.l = 1 then some (s.zBits (f.b.toNat + 2) 32 6, n.dst) else none

/-- The check of REL: DEST is the first byte of a FILLING buffer of the ring (R179). -/
def State.relCheck (s : State) (f : ECpy) (n : CopyNest) : Verdict :=
  match s.copyRel f n with
  | none => .pass
  | some (r, a) =>
    (s.ringCheck r).andThen
      (match s.myCluster.ring r with
        | none => .trap (s.ringTrap r)
        | some g => need (n.dstSpad && ((heldRing s.me.held r g).release a false).isSome) (s.ringTrap r))

/-- The checks of CPY and CPYT (R341). -/
def State.copyCheck (s : State) (f : ECpy) (transposes : Bool) : Verdict :=
  let n := s.copyNest f transposes
  (s.copyBlock f.b.toNat transposes).andThen
    (allChecks [s.copyAligned n, s.rangesCheck ((n.xfers.map Xfer.spadRanges).flatten), s.fifoCheck n,
      if transposes then s.overlapCheck f n else .pass, s.relCheck f n])

/-- The registers and effect of CPY and CPYT: a held command of the COPY path. -/
def copySem (f : ECpy) (transposes : Bool) : OpSem :=
  engineSem f.p f.n f.w (fun s => [s.copyCheck f transposes]) (fun _ => []) (fun _ => [])
    (fun s =>
      let n := s.copyNest f transposes
      s.holdCommand { s.newCommand (if transposes then 2 else 1) pCopy (.copy n) with
        sync := s.syncWord f.w, rel := s.copyRel f n })

/-- CPY (R341). -/
def semCpy (f : ECpy) : OpSem := copySem f false
def execCpy (f : ECpy) (s : State) : Host.Outcome State Fault Refusal := runSlot (.cpy f) (semCpy f) s

/-- CPYT (R341). -/
def semCpyt (f : ECpy) : OpSem := copySem f true
def execCpyt (f : ECpy) (s : State) : Host.Outcome State Fault Refusal := runSlot (.cpyt f) (semCpyt f) s

/-! ## Tile transfers (R184, R185) -/

/-- The origin in z[b+1] and z[b+2] (R184). -/
def State.origin (s : State) (b : Nat) : List Int :=
  (List.range 6).map fun k => signed (s.zBits (b + 1 + k / 3) (21 * (k % 3)) 21) 21

/-- The origins of some dimensions are zero: DESC_INVALID, SUB 4, with the place of the first that is not. -/
def State.originZero (s : State) (b : Nat) (ks : List Nat) : Verdict :=
  match ks.find? fun k => (s.origin b).getD k 0 != 0 with
  | some k => .trap (s.stagingTrap (b + 1 + k / 3) (21 * (k % 3)))
  | none => .pass

/-- The dimensions at and beyond RANK. -/
def Desc.beyond (d : Desc) : List Nat := (List.range 6).drop d.rank

/-- The tile's descriptor, named by z[b][7:0]. -/
def State.tileDesc (s : State) (b : Nat) : Desc := s.desc (s.zBits b 0 8)

/-- The checks of a tile's staging block: the reserved bits of z[b] from bit lo, and REL, a flag of the slot word for which the record
names z[b], bit 0 (R184). DESIGN CHOICE (log 92). -/
def State.tileFields (s : State) (b lo n : Nat) (rel : BitVec 1) : Verdict :=
  allChecks [s.blockFits b n, s.zeroField b lo (64 - lo), s.zeroField (b + 1) 63 1, s.zeroField (b + 2) 63 1,
    if n = 4 then s.zeroField (b + 3) 32 32 else .pass, need (rel == 0) (s.stagingTrap b 0)]

/-- The origin is zero in the dimensions at and beyond RANK (R184). -/
def State.tileOrigin (s : State) (b : Nat) : Verdict := s.originZero b (s.tileDesc b).beyond

/-- The checks of a tile's staging block, the origin among them (R184). -/
def State.tileBlock (s : State) (b lo n : Nat) (rel : BitVec 1) : Verdict :=
  (s.tileFields b lo n rel).andThen (s.tileOrigin b)

/-- DESC_INVALID, SUB 6, for the descriptor of a tile transfer, unless the condition holds. -/
def State.tileNeed (s : State) (b reason : Nat) (c : Bool) : Verdict := need c (s.descTrap (s.zBits b 0 8) reason none)

/-- The checks of an append of an engine command that are common to every entry: a configured queue, and the banks of the
slot of a queue of the berth's own (R48, R89, R314). -/
def State.appendsTo (s : State) (q : Nat) : Verdict :=
  let x := s.srcQ q
  (need x.configured (s.queueTrap q)).andThen
    (if x.splice = .localQ ∨ x.splice = .openQ then s.slotsCheck q 1 else .pass)

/-- A queue of the berth's own that takes appends of an engine command: LOCAL or OPEN, and not subscribed (R374, R430). -/
def State.localCheck (s : State) (q : Nat) : Verdict :=
  let x := s.srcQ q
  need ((x.splice == .localQ || x.splice == .openQ) && !x.subscribed) (s.queueTrap q)

/-- A command of a tensor with its attributes (R177). -/
def Command.ofTensor (k : Command) (d : Desc) : Command := { k with needCrit := d.crit, needMs := d.ms }

/-- An appending command started: its slot is reserved (R92, R95). -/
def State.startAppend (s : State) (q : Nat) (k : Command) (w : Nat → Work) : State :=
  let x := s.liveQ q
  let a := x.slotAddr x.tail
  (s.reserve q).startCommand { k with work := w a, append := some (q, x.tail, a) }

/-- The tile that a command takes from the tensor into an entry of queue q. -/
def State.tileJob (s : State) (b q : Nat) (rows : Option (List Int)) (padu : BitVec 1) (entry : Nat) : TileJob :=
  { desc := s.tileDesc b, origin := s.origin b, rows := rows, entry := entry, esize := (s.srcQ q).esize,
    padu := padu == 1 }

/-- The checks of LDQ after its staging block: the descriptor, the scales, the queue (R374). -/
def State.ldqTile (s : State) (b q : Nat) : Verdict :=
  let d := s.tileDesc b
  allChecks [s.tileNeed b 0 d.isSet, s.tileNeed b 2 (d.tileBytes == (s.srcQ q).esize),
    s.tileNeed b 5 (d.scalesShared (s.origin b) none), s.localCheck q]

/-- LDQ (R374). -/
def semLdq (f : EApp) : OpSem :=
  let b := f.b.toNat
  let q := f.q.toNat
  engineSem f.p f.n f.w (fun s => [s.appendsTo q, s.tileBlock b 8 3 f.l, s.ldqTile b q]) (fun _ => [])
    (fun _ => [⟨q, 1⟩])
    (fun s =>
      let j := s.tileJob b q none f.u
      s.startAppend q ({ s.newCommand 4 pCopy (.load (j 0)) with sync := s.syncWord f.w }.ofTensor (s.tileDesc b))
        fun a => .load (j a))
def execLdq (f : EApp) (s : State) : Host.Outcome State Fault Refusal := runSlot (.ldq f) (semLdq f) s

/-- The poison marks of the blocks of a range as bits. -/
def Cluster.marksOf (k : Cluster) (addr n : Nat) : Nat :=
  packElems 1 ((List.range (n / 128)).map fun i => if (k.block (addr + 128 * i)).mark then 1 else 0)

/-- The poison marks of an entry's blocks. -/
def State.entryMarks (s : State) (e : Entry) : Nat := s.myCluster.marksOf (s.entryAddr e) (s.srcQ e.queue).esize

/-- The presence of a source entry of a command that carries marks on (R91, R163). -/
def State.entryPresent (s : State) (e : Entry) : Verdict := await (s.myCluster.block (s.entryAddr e)).present

/-- STQ (R426). It waits for its entry (R91, log 100) and reads it after its release. -/
def semStq (f : ESrc) : OpSem :=
  let b := f.b.toNat
  let e := entry7 f.o
  engineSem f.p f.n f.w
    (fun s =>
      let d := s.tileDesc b
      [s.tileBlock b 8 3 f.l, s.tileNeed b 0 d.isSet,
        s.tileNeed b 2 (d.tileBytes == (s.srcQ e.queue).esize), s.tileNeed b 4 (!d.zeroStride), s.distance e,
        s.entryPresent e])
    (fun _ => []) (fun _ => [])
    (fun s =>
      s.holdCommand ({ s.newCommand 5 pCopy (.store (s.tileJob b e.queue none f.u 0) 0 0) with
        sync := s.syncWord f.w, unread := [s.source e] }.ofTensor (s.tileDesc b)))
def execStq (f : ESrc) (s : State) : Host.Outcome State Fault Refusal := runSlot (.stq f) (semStq f) s

/-- The row indices in an index entry: s32 lanes (R185). -/
def rowsOf (bytes : Nat) : List Int := (unpackElems 32 32 bytes).map fun x => signed x 32
def State.indexRows (s : State) (e : Entry) : List Int := rowsOf (s.entryBytes e)

/-- The origin of the tile row dimension is zero (R366, R417). -/
def State.rowOrigin (s : State) (b : Nat) : Verdict := s.originZero b (s.tileDesc b).rowDim.toList

/-- GATH (R367). -/
def semGath (f : ESrc) : OpSem :=
  let b := f.b.toNat
  let e := entry7 f.o
  engineSem f.p f.n f.w
    (fun s =>
      let d := s.tileDesc b
      let q := s.zBits b 8 2
      [s.blockFits b 3, s.appendsTo q, s.tileBlock b 10 3 f.l, s.rowOrigin b, s.tileNeed b 0 d.isSet, s.tileNeed b 6 (d.trows == 5),
        s.tileNeed b 2 (d.tileBytes == (s.srcQ q).esize),
        need ((s.srcQ e.queue).esize == 128) (s.queueTrap e.queue), s.localCheck q, s.distance e, s.entryPresent e,
        s.tileNeed b 5 (d.scalesShared (s.origin b) (some (s.indexRows e)))])
    (fun _ => []) (fun s => [⟨s.zBits b 8 2, 1⟩])
    (fun s =>
      let s := s.readEntries [e]
      let q := s.zBits b 8 2
      let j := s.tileJob b q (some (s.indexRows e)) f.u
      s.startAppend q ({ s.newCommand 6 pCopy (.load (j 0)) with sync := s.syncWord f.w }.ofTensor (s.tileDesc b))
        fun a => .load (j a))
def execGath (f : ESrc) (s : State) : Host.Outcome State Fault Refusal := runSlot (.gath f) (semGath f) s

/-- The data entry of SCAT (R417). -/
def State.scatData (s : State) (b : Nat) : Entry := entry7 (.ofNat 7 (s.zBits b 8 7))

/-- SCAT (R418). It reads its entries after its release. -/
def semScat (f : ESrc) : OpSem :=
  let b := f.b.toNat
  let e := entry7 f.o
  engineSem f.p f.n f.w
    (fun s =>
      let d := s.tileDesc b
      let x := s.scatData b
      [s.tileBlock b 15 3 f.l, s.rowOrigin b, s.tileNeed b 0 d.isSet, s.tileNeed b 6 (d.trows == 5),
        s.tileNeed b 2 (d.tileBytes == (s.srcQ x.queue).esize), s.tileNeed b 4 (!d.zeroStride),
        need ((s.srcQ e.queue).esize == 128) (s.queueTrap e.queue), s.distance e, s.distance x, s.entryPresent e,
        s.entryPresent x])
    (fun _ => []) (fun _ => [])
    (fun s =>
      let x := s.scatData b
      s.holdCommand ({ s.newCommand 7 pCopy (.store (s.tileJob b x.queue (some []) f.u 0) 0 0) with
        sync := s.syncWord f.w, unread := [s.source x, s.source e] }.ofTensor (s.tileDesc b)))
def execScat (f : ESrc) (s : State) : Host.Outcome State Fault Refusal := runSlot (.scat f) (semScat f) s

/-! ## CPYM (R186, R342, R343) -/

/-- The fields of the M-slot word of a CPYM, if it is an MMA or MMAS without a predicate that R298 allows: whether it is
an MMAS, and its fields. -/
def State.followOn (s : State) (b : Nat) : Option (Bool × MF) :=
  match decodeSlot .matrix (s.zBits (b + 3) 0 32) with
  | some [.mma f] => if (Instr.mma f).wellFormed && f.p == 0 && f.n == 0 then some (false, f) else none
  | some [.mmas f] => if (Instr.mmas f).wellFormed && f.p == 0 && f.n == 0 then some (true, f) else none
  | _ => none

/-- The check of R90 for an operand of a follow-on, with the CPYM's own entry in queue q counted as present. -/
def State.followDistance (s : State) (q : Nat) (e : Entry) : Verdict :=
  let x := s.srcQ e.queue
  if e.queue = q ∧ x.readable ∧ e.offset = x.occ then .pass else s.distance e

/-- The checks that the follow-on makes as MMA or MMAS, its operands' entries apart (R388, R391). -/
def State.followFits (s : State) (w : Bool × MF) : Verdict :=
  let a := entry8 w.2.a
  let b := entry8 w.2.b
  allChecks [if w.1 then s.compressedFits a else .pass, s.operandFits false a, s.operandFits true b,
    s.pairingCheck a b,
    if w.2.z = 1 then .pass else s.liveIn (s.halfOf w.2.h)]

/-- The checks of CPYM: those of its append, common to the slot, then the order of R343, and those of the follow-on itself before
its fifth (log 23). -/
def State.cpymCheck (s : State) (f : EApp) : List Verdict :=
  let b := f.b.toNat
  let follow (v : Bool × MF → Verdict) : Verdict := ((s.followOn b).map v).getD .pass
  [s.appendsTo f.q.toNat, s.tileFields b 8 4 f.l, need (s.followOn b).isSome (s.trap tIllegalOpcode (s.zBits (b + 3) 0 4)),
    follow fun w => s.followDistance f.q.toNat (entry8 w.2.a), follow fun w => s.followDistance f.q.toNat (entry8 w.2.b),
    s.tileOrigin b, s.ldqTile b f.q.toNat, follow s.followFits, s.engineFree]

/-- The address of an operand of a follow-on that has not landed, as the state stands after the reservation; of the odd member of a pair
one too that the even member has still to append (R249). -/
def State.followAddr (s : State) (e : Entry) : Option Nat :=
  let a := (s.srcQ e.queue).slotAddr (s.boundCounter e)
  if (s.myCluster.block a).present && s.twinAppended e then none else some a

/-- The follow-on of a CPYM with what of its operands has landed (R186). -/
def State.followOp (s : State) (w : Bool × MF) (after : Option Nat) : MatrixOp :=
  let a := entry8 w.2.a
  let b := entry8 w.2.b
  { s.product (if w.1 then 1 else 0) w.2
      (match s.followAddr b with
        | none => s.wholeGroup b
        | some _ => []) (s.queueDesc b.queue).fmt with
    slot := 5, addrA := s.followAddr a, addrB := s.followAddr b, after := after }

/-- The operands of a follow-on that have landed are read as it issues (R188, R192). -/
def State.readLanded (s : State) (w : Bool × MF) : State :=
  s.readEntries ([entry8 w.2.a, entry8 w.2.b].filter fun e => (s.followAddr e).isNone)

/-- The even member of a pair has issued its CPYM: the follow-on that the odd member issued ahead of it awaits what its own awaits
(R186, R249). -/
def MatrixOp.adopt (o e : MatrixOp) : MatrixOp :=
  { o with
    after := e.after, addrA := if o.addrA.isSome then e.addrA else none, addrB := if o.addrB.isSome then e.addrB else none
    a := if o.addrA.isSome then e.a else o.a, scaleA := if o.addrA.isSome then e.scaleA else o.scaleA
    groups := if o.addrB.isSome then e.groups else o.groups }

/-- A follow-on of a berth that has no command yet (R249). -/
def MatrixOp.alone (o : MatrixOp) (b : Nat) : Bool := o.slot == 5 && o.berth == b && o.after.isNone

/-- The follow-on of the same bundle that the odd member has issued ahead of the even one adopted. -/
def State.adoptFollow (s : State) (e : MatrixOp) : State :=
  match s.me.task.bind Task.partner with
  | none => s
  | some (d, x) =>
    let l (l : List MatrixOp) : List MatrixOp :=
      l.map fun o => if o.alone x && o.bundle == e.bundle then o.adopt e else o
    let k := s.core d
    s.setCore d { k with half0 := l k.half0, half1 := l k.half1 }

/-- The follow-on of a member's CPYM takes its place (R32, R130, R186). -/
def State.pushFollow (s : State) (w : Bool × MF) (after : Option Nat) : State :=
  (s.readLanded w).pushHalf (s.halfOf w.2.h) (s.followOp w after) (zRows w.2.z)

/-- The command of the even member's CPYM that makes an append for both members. -/
def State.twinCommand (s : State) (append : Nat × BitVec 16 × Nat) : Option Nat :=
  match s.me.task.bind Task.partner with
  | none => none
  | some (d, e) =>
    (s.commands.find? fun x => x.2.core == d && x.2.berth == e && x.2.op == 3 && x.2.append == some append).map Prod.fst

/-- The follow-on of a CPYM that has just issued. Of a pair the odd member's belongs to the even member's command: where that has still
to issue, it awaits it, and where it has stopped short the follow-on never starts (R249, R343). -/
def State.issueFollow (s : State) (w : Bool × MF) (append : Nat × BitVec 16 × Nat) : State :=
  if s.odd then
    match s.twinCommand append with
    | some id => s.pushFollow w (some id)
    | none =>
      if s.twin.issued ≤ s.me.issued ∨ (s.myCluster.block append.2.2).present then s.pushFollow w none
      else s
  else (s.pushFollow w s.me.lastE).adoptFollow (s.followOp w s.me.lastE)

/-- CPYM (R343). -/
def semCpym (f : EApp) : OpSem :=
  let b := f.b.toNat
  let q := f.q.toNat
  engineSem f.p f.n f.w (fun s => s.cpymCheck f) (fun _ => []) (fun _ => [⟨q, 1⟩])
    (fun s =>
      let j := s.tileJob b q none f.u
      let x := s.liveQ q
      let append := (q, x.tail, x.slotAddr x.tail)
      let s := s.startAppend q
        ({ s.newCommand 3 pCopy (.load (j 0)) with sync := s.syncWord f.w }.ofTensor (s.tileDesc b)) fun a => .load (j a)
      match s.followOn b with
      | some w => s.issueFollow w append
      | none => s)
def execCpym (f : EApp) (s : State) : Host.Outcome State Fault Refusal := runSlot (.cpym f) (semCpym f) s

/-! ## PREF, PIN, UNPN (R401, R436) -/

/-- The checks of the two staging registers of PREF, PIN and UNPN. -/
def State.lineBlock (s : State) (b : Nat) : Verdict :=
  allChecks [s.blockFits b 2, s.zeroField b 56 8, s.zeroField (b + 1) 32 32]

/-- The lines that PREF, PIN and UNPN cover. -/
def State.lineWork (s : State) (b : Nat) : Work := .lines (s.zBits b 0 56) (s.zBits (b + 1) 0 32)

/-- A command of PREF, PIN or UNPN. -/
def linesSem (f : EZ) (effect : State → State) : OpSem :=
  engineSem f.p f.n 0 (fun s => [s.lineBlock f.b.toNat]) (fun _ => []) (fun _ => []) effect

/-- PREF (R401): not held; each member of a redundant pair prefetches. -/
def semPref (f : EZ) : OpSem :=
  linesSem f fun s =>
    let k : Command := { s.newCommand 8 pCopy (s.lineWork f.b.toNat) with held := false }
    ({ s.bump with commands := Map.set s.commands s.stamp k }).later (.engineGranuleCheck s.stamp)
def execPref (f : EZ) (s : State) : Host.Outcome State Fault Refusal := runSlot (.pref f) (semPref f) s

/-- PIN (R401). -/
def semPin (f : EZ) : OpSem := linesSem f fun s => s.holdCommand (s.newCommand 9 pCopy (s.lineWork f.b.toNat))
def execPin (f : EZ) (s : State) : Host.Outcome State Fault Refusal := runSlot (.pin f) (semPin f) s

/-- UNPN (R436). -/
def semUnpn (f : EZ) : OpSem := linesSem f fun s => s.holdCommand (s.newCommand 10 pCopy (s.lineWork f.b.toNat))
def execUnpn (f : EZ) (s : State) : Host.Outcome State Fault Refusal := runSlot (.unpn f) (semUnpn f) s

/-! ## ACCH and FLUSHR (R315 to R317, R363) -/

/-- The addends of an ACCH, their marks and the flags (R316, R317). -/
def acchAddends (d : Desc) (bytes : Nat) : Nat × Nat × BitVec 7 :=
  let l := (unpackElems 32 32 bytes).map (a64Addend (signed d.scale 8))
  (packElems 64 (l.map fun x => lowBits x.1 64), packElems 1 (l.map fun x => if x.2.1 then 1 else 0),
    l.foldl (fun f x => f ||| x.2.2) 0)

/-- ACCH (R316, R317). A source entry with a poison mark raises POISON (R163). The banks of the residual table are checked
first (R48, R314). -/
def semAcch (f : EAcch) : OpSem :=
  let b := f.b.toNat
  let e := entry7 f.o
  engineSem f.p f.n 0
    (fun s =>
      let d := s.tileDesc b
      [s.resTableCheck, s.blockFits b 2, s.zeroField b 8 56, s.zeroField (b + 1) 56 8, s.tileNeed b 0 d.isSet,
        s.tileNeed b 1 (d.fmt == 0xE), s.alignCheck (s.zBits (b + 1) 0 56) 256, s.sourceCheck e 128, s.presence e])
    (fun _ => []) (fun _ => [])
    (fun s =>
      let (a, m, fl) := acchAddends (s.tileDesc b) (s.entryBytes e)
      s.holdReading { s.newCommand 0xB pAccum
          (.acch (s.zBits (b + 1) 0 56) a m s.iss.start.quota.toNat) with flags := fl } e)
def execAcch (f : EAcch) (s : State) : Host.Outcome State Fault Refusal := runSlot (.acch f) (semAcch f) s

/-- FLUSHR (R363); the banks of the residual table are checked (R48, R314). -/
def semFlushr (f : EFlushr) : OpSem :=
  engineSem f.p f.n 0 (fun s => [s.resTableCheck]) (fun _ => []) (fun _ => [])
    fun s => s.holdCommand (s.newCommand 0xC pAccum .flushr)
def execFlushr (f : EFlushr) (s : State) : Host.Outcome State Fault Refusal := runSlot (.flushr f) (semFlushr f) s

/-! ## XST (R439, R440) -/

/-- The number of bytes that an XST sends: 0 stands for the whole entry. -/
def State.xstLength (s : State) (b : Nat) (e : Entry) : Nat :=
  let n := s.zBits (b + 1) 0 17
  if n = 0 then (s.srcQ e.queue).esize else n

/-- The checks of XST, in the order of R440. -/
def State.xstCheck (s : State) (b : Nat) (e : Entry) : List Verdict :=
  let n := s.xstLength b e
  let o := s.zBits b 19 17
  [s.blockFits b 2, s.zeroFields b [(36, 28), (11, 4)], s.zeroField (b + 1) 27 37,
    need (o % 128 == 0) (s.stagingTrap b 19), need (n % 128 == 0) (s.stagingTrap (b + 1) 0),
    need (decide (n ≤ (s.srcQ e.queue).esize)) (s.stagingTrap (b + 1) 0),
    need (decide (o + n ≤ 131072)) (s.stagingTrap b 19), s.coreCheck (s.zBits b 0 11), s.distance e, s.entryPresent e]

/-- XST (R440). It reads its entry after its release. -/
def semXst (f : EXst) : OpSem :=
  let b := f.b.toNat
  let e := entry7 f.o
  engineSem f.p f.n f.w (fun s => s.xstCheck b e) (fun _ => []) (fun _ => [])
    (fun s =>
      let n := s.xstLength b e
      s.holdCommand { s.newCommand 0xD pXchg
          (.xst 0 0 n (s.zBits b 0 11) (s.zBits b 15 4) (s.zBits b 19 17) (s.zBits (b + 1) 17 5) (s.zBits (b + 1) 22 5)) with
        sync := s.syncWord f.w, unread := [s.source e] })
def execXst (f : EXst) (s : State) : Host.Outcome State Fault Refusal := runSlot (.xst f) (semXst f) s

/-! ## SUBS and RETS (R412, R429 to R431) -/

/-- The subscription that a staging block lays down for a queue. -/
def State.newSub (s : State) (f : EApp) : Sub :=
  { queue := f.q.toNat, desc := s.tileDesc f.b.toNat, z0 := s.srcZ f.b.toNat, z1 := s.srcZ (f.b.toNat + 1),
    padu := f.u == 1, sync := s.syncWord f.w, esize := (s.srcQ f.q.toNat).esize, begun := 0, landed := 0, returned := 0,
    stopped := false, rewound := false, fresh := true, ended := false }

/-- The origin of tile k of a subscription (R429, R430). -/
def Sub.origin (x : Sub) (k : Nat) : List Int :=
  (List.range 6).map fun j =>
    (if j < 3 then signed (bits x.z1.toNat (21 * j) 21) 21 else 0) +
      (if j = bits x.z0.toNat 12 3 then (k : Int) * signed (bits x.z0.toNat 36 21) 21 else 0)

/-- The subscription is read only. -/
def Sub.readOnly (x : Sub) : Bool := x.z0.getLsbD 15

/-- The subscription is one of a discarded attempt that a SUBS of a queue with some staging values repeats: its number among them
(R429, R431). -/
def Sub.repeats (x : Sub) (q : Nat) (z0 z1 : Word) : Bool := x.rewound && x.queue == q && x.z0 == z0 && x.z1 == z1

/-- The key of the subscription that a SUBS repeats. -/
def State.subRepeats (s : State) (f : EApp) : Option Nat :=
  (s.me.subs.find? fun e => e.2.repeats f.q.toNat (s.srcZ f.b.toNat) (s.srcZ (f.b.toNat + 1))).map Prod.fst

/-- The active subscription of a berth under a number (R430, R431). -/
def Berth.sub? (x : Berth) (n : Nat) : Option Sub := (Map.get? x.subs n).filter fun t => !t.ended

/-- The nonzero origins beyond RANK in the one origin register of SUBS. -/
def State.subOrigin (s : State) (b : Nat) : Verdict :=
  match (List.range 3).find? fun k => decide ((s.tileDesc b).rank ≤ k) && s.zBits (b + 1) (21 * k) 21 != 0 with
  | some k => .trap (s.stagingTrap (b + 1) (21 * k))
  | none => .pass

/-- The checks of SUBS, in the order of R430. -/
def State.subsCheck (s : State) (f : EApp) : Verdict :=
  let b := f.b.toNat
  let q := f.q.toNat
  let d := s.tileDesc b
  if (s.subRepeats f).isSome then .pass
  else
    allChecks [s.appendsTo q, s.blockFits b 2, s.zeroField b 57 7, s.zeroField (b + 1) 63 1, need (f.l == 0) (s.stagingTrap b 0),
      need (s.zBits b 16 20 != 0) (s.stagingTrap b 16), need (decide (s.zBits b 12 3 < d.rank)) (s.stagingTrap b 12),
      s.subOrigin b, need (s.me.sub? (s.zBits b 8 4)).isNone (s.stagingTrap b 8), s.tileNeed b 0 d.isSet,
      s.tileNeed b 2 (d.tileBytes == (s.srcQ q).esize),
      s.tileNeed b 5 ((List.range (s.newSub f).count).all fun k => d.scalesShared ((s.newSub f).origin k) none),
      need ((s.srcQ q).splice == .localQ && !(s.srcQ q).subscribed) (s.queueTrap q)]

/-- A new subscription under its number; one that has ended in the open segment is kept under a number of its own, for a rewind
(R431). -/
def Berth.addSub (x : Berth) (n spare : Nat) (t : Sub) : Berth :=
  let old := match Map.get? x.subs n with
    | some u => Map.set x.subs (16 + spare) u
    | none => x.subs
  { x with subs := Map.set old n t }

/-- SUBS (R430, R431). -/
def semSubs (f : EApp) : OpSem :=
  engineSem f.p f.n f.w (fun s => [s.subsCheck f]) (fun _ => []) (fun _ => [])
    (fun s =>
      let n := s.zBits f.b.toNat 8 4
      match s.subRepeats f with
      | some m =>
        s.onMe fun b => { b with subs := b.subs.map fun (e : Nat × Sub) =>
          if e.1 = m then (m, { e.2 with rewound := false }) else e }
      | none =>
        (s.bump.onMe fun b =>
          { b.addSub n s.stamp (s.newSub f) with
            regs := b.regs.putQ f.q.toNat { b.regs.queue f.q.toNat with subscribed := true } }).later
          (.stevedorePush s.iss.core s.iss.berth n))
def execSubs (f : EApp) (s : State) : Host.Outcome State Fault Refusal := runSlot (.subs f) (semSubs f) s

/-- The number of the next RETS of a subscription: those released, and those of the open segment (R412). -/
def State.retsNumber (s : State) (n : Nat) (x : Sub) : Nat :=
  x.returned + (s.me.segE.filter fun k => k.op == 0xF && k.push == some n).length

/-- RETS (R412). It reads its entry after its release. A subscription that is read only, or all of whose entries are returned, takes
none; an entry of another size traps naming the queue. DESIGN CHOICE (log 24). -/
def semRets (f : EXst) : OpSem :=
  let b := f.b.toNat
  let e := entry7 f.o
  engineSem f.p f.n f.w
    (fun s =>
      [s.distance e, s.entryPresent e, s.blockFits b 1, s.zeroField b 4 60,
        match s.me.sub? (s.zBits b 0 4) with
        | none => .trap (s.stagingTrap b 0)
        | some x =>
          (need (!x.readOnly && decide (s.retsNumber (s.zBits b 0 4) x < x.count)) (s.stagingTrap b 0)).andThen
            (need ((s.srcQ e.queue).esize == x.esize) (s.queueTrap e.queue))])
    (fun _ => []) (fun _ => [])
    (fun s =>
      let n := s.zBits b 0 4
      match s.me.sub? n with
      | none => s
      | some x =>
        s.holdCommand ({ s.newCommand 0xF pSteve
            (.store { desc := x.desc, origin := x.origin (s.retsNumber n x), rows := none, entry := 0, esize := x.esize,
                      padu := false } 0 0) with
          sync := s.syncWord f.w, push := some n, unread := [s.source e] }.ofTensor x.desc))
def execRets (f : EXst) (s : State) : Host.Outcome State Fault Refusal := runSlot (.rets f) (semRets f) s

/-! ## COLL (R337, R338) -/

/-- The formats of COLL. -/
def collFormat (f : Nat) : Bool := f ≤ 2 || f == 0xA || f == 0xD || f == 0xE

/-- The contribution that a staging block lays down. -/
def State.collJob (s : State) (b : Nat) (e : Entry) : CollJob :=
  let d := s.desc (s.zBits b 8 8)
  let (spad, dest) := s.spaceAddr (b + 2)
  let pkg := s.zBits (b + 1) 48 9
  { cluster := s.zBits (b + 1) 0 7 + (if pkg = bits s.ctrl.pkgnum.toNat 0 9 then 0 else 128 * (pkg + 1)), ident := s.zBits (b + 1) 8 4, n := s.zBits b 16 16,
    rank := if s.zBits b 7 1 = 0 then d.shard else s.zBits (b + 1) 16 16, comb := s.zBits b 4 2, kind := s.zBits b 0 4,
    root := s.zBits (b + 3) 0 16, fmt := d.fmt, destSpad := spad, dest := dest, size := (s.srcQ e.queue).esize,
    bytes := s.entryBytes e, mark := s.entryMarks e != 0 }

/-- The checks of COLL: the source under R90 and R91 and the banks of DEST under R48 first (R314), then those of R337 and R338. -/
def State.collCheck (s : State) (b : Nat) (e : Entry) : List Verdict :=
  let j := s.collJob b e
  let dn := s.zBits b 8 8
  let scope := s.zBits (b + 1) 32 3
  let pkg := s.zBits (b + 1) 48 9
  [s.distance e, s.entryPresent e, if j.destSpad && j.receives then s.rangesCheck [(j.dest, j.size)] else .pass,
    s.blockFits b 4, s.zeroFields b [(32, 32), (6, 1)],
    need (decide (1 ≤ j.n) && decide (j.n ≤ 4096)) (s.stagingTrap b 16), need (j.comb != 3) (s.stagingTrap b 4),
    need (decide (j.kind ≤ 2)) (s.stagingTrap b 0), s.zeroFields (b + 1) [(57, 7), (35, 13), (12, 4), (7, 1)],
    s.zeroFields (b + 2) [(60, 4), (57, 3)], s.zeroField (b + 3) 16 48,
    need (decide (j.rank < j.n)) (if s.zBits b 7 1 = 0 then s.stagingTrap b 8 else s.stagingTrap (b + 1) 16),
    need (j.kind == 0 || decide (j.root < j.n)) (s.stagingTrap (b + 3) 0),
    need (s.desc dn).isSet (s.descTrap dn 0 none), need (collFormat j.fmt) (s.descTrap dn 1 none), s.scopeCheck scope,
    need (pkg == bits s.ctrl.pkgnum.toNat 0 9 || decide (6 ≤ scope)) (s.trap tProt (sub 1 (scope + 8 * s.myScope))),
    if pkg = bits s.ctrl.pkgnum.toNat 0 9 then s.clusterCheck j.cluster else .pass,
    if j.destSpad && j.receives then s.fifoRange j.dest j.size else .pass]

/-- COLL (R338). -/
def semColl (f : EXst) : OpSem :=
  let b := f.b.toNat
  let e := entry7 f.o
  engineSem f.p f.n f.w (fun s => s.collCheck b e) (fun _ => []) (fun _ => [])
    (fun s =>
      s.holdReading { s.newCommand 0x10 pColl (.coll (s.collJob b e)) with sync := s.syncWord f.w } e)
def execColl (f : EXst) (s : State) : Host.Outcome State Fault Refusal := runSlot (.coll f) (semColl f) s

end Sys2Proof.Machine
end

