-- ==== Sys2Proof/Machine/Store.lean ====
section
/-! DEFINITION. Physical memory as accesses and engines read and write it: bit ranges, overflow bits (R138), poison bits
(R163), L1 copies (R193). -/

namespace Sys2Proof.Machine

/-! ## Bit ranges -/

/-- w bits from a bit address, of bytes read one by one. -/
def readBits (byte : Nat → Byte) (b w : Nat) : Nat :=
  bits ((List.range ((b % 8 + w + 7) / 8)).foldr (fun i t => (byte (b / 8 + i)).toNat + 256 * t) 0) (b % 8) w

/-- The bytes, by address, that a write of w bits at a bit address stores, the other bits of each kept. -/
def writtenBytes (byte : Nat → Byte) (b w v : Nat) : List (Nat × Byte) :=
  let n := (b % 8 + w + 7) / 8
  let old := (List.range n).foldr (fun i t => (byte (b / 8 + i)).toNat + 256 * t) 0
  let x := setBits old (b % 8) w v
  (List.range n).map fun i => (b / 8 + i, .ofNat 8 (bits x (8 * i) 8))

/-! ## Memory -/

/-- A plain write of n bytes: the overflow bits of the lines touched are cleared (R138). -/
def State.putMem (s : State) (pa n v : Nat) : State :=
  { s with
    mem := s.mem.write pa n v
    ovf := (unitsOf 256 pa n).foldl (fun (m : Map Bool) i => Map.set m i false) s.ovf }

/-- The banks that are ways of a cluster's L1 (R146, R148). -/
def Cluster.cacheBanks (k : Cluster) : List Nat := (List.range 32).filter fun n => (k.bank n).mode == .cache

/-- A way holds another line of a line's set, of 2,048 sets (R148). -/
def Cluster.wayTaken (k : Cluster) (i n : Nat) : Bool :=
  k.l1.any fun e => e.2.bank == n && e.1 != i && Config.l1Set e.1 % 2048 == Config.l1Set i % 2048

/-- The way for a line in a cluster's L1: the one that holds it, an empty one, or one that gives up its line; none without
cache-mode banks (R148). DESIGN CHOICE (log 11). -/
def Cluster.wayFor (k : Cluster) (i packet : Nat) : Option Nat :=
  match Map.get? k.l1 i with
  | some x => some x.bank
  | none =>
    let l := k.cacheBanks
    (l.find? fun n => !k.wayTaken i n) <|> l[Config.victim i packet % l.length]?

/-- A copy of a 64-byte line, of a line that L2 holds, in a cluster's L1 takes the line's data and timestamps; its slice records
the cluster (R148, R149, R193). -/
def State.fillL1 (s : State) (cl i : Nat) : State :=
  let k := s.cluster cl
  match Map.get? s.lines (i / 4), k.wayFor i s.packets with
  | some (w, r), some n =>
    let l := k.l1.filter fun (e : Nat × L1Line) => e.1 == i || e.2.bank != n || !k.wayTaken i n ||
      Config.l1Set e.1 % 2048 != Config.l1Set i % 2048
    let h := Map.getD s.sharers (i / 4) []
    { s.setCluster cl { k with l1 := Map.set l i { bank := n, data := s.mem.read (64 * i) 64, wts := w, rts := r } } with
      sharers := if h.contains cl then s.sharers else Map.set s.sharers (i / 4) (h ++ [cl]) }
  | _, _ => s

/-- The copies that a cluster's L1 holds of a range are replaced after a write (R148, R193). -/
def State.refreshL1 (s : State) (cl pa n : Nat) : State :=
  (unitsOf 64 pa n).foldl (fun (s : State) i =>
    match Map.get? (s.cluster cl).l1 i with
    | some _ => s.fillL1 cl i
    | none => s) s

/-! ## Poison bits (R163) -/

/-- The poison bit of a granule of local DRAM written. -/
def State.putPoison (s : State) (pa : Nat) (b : Bool) : State :=
  let a := s.ctrl.poisonmap.toNat + pa / 4096 / 8
  { s with mem := s.mem.put a (.ofNat 8 (setBits (s.mem.byte a).toNat (pa / 4096 % 8) 1 (if b then 1 else 0))) }

/-- POISON bit g set in the handles of a register set that name a frame. -/
def Regs.poisonHandles (x : Regs) (frame g : Nat) : Regs :=
  { x with h := x.h.map fun (h : Handle) =>
      if h.loaded && h.ready && h.fault == 0 && h.frame.toNat == frame then
        { h with poison := h.poison ||| BitVec.ofNat 16 (2 ^ g) }
      else h }

def Berth.poisonHandles (b : Berth) (frame g : Nat) : Berth :=
  { b with regs := b.regs.poisonHandles frame g, ckpt := b.ckpt.map fun x => x.poisonHandles frame g }

/-- The granule of a physical address poisoned: its bit and that of every handle that names it. -/
def State.poison (s : State) (pa : Nat) : State :=
  if s.target pa = .dram then
    let s := s.putPoison pa true
    { s with cores := s.cores.map fun (e : Nat × Core) =>
        (e.1, { e.2 with berths := e.2.berths.map fun b => b.poisonHandles (pa / 65536) (pa / 4096 % 16) }) }
  else s

/-- Marked data written to memory, or a granule covered with unmarked data: the granule's poison is set or cleared, that of another
package's memory by that package (R163). Host memory keeps none. DEDUCED (log 101). -/
def State.taint (s : State) (pa : Nat) (marked : Bool) : State :=
  match s.target pa with
  | .dram => if marked then s.poison pa else s.putPoison pa false
  | .pod _ => { s with farPoison :=
      if marked then Map.set s.farPoison (pa / 4096) true else Map.erase s.farPoison (pa / 4096) }
  | _ => s

end Sys2Proof.Machine
end

