-- ==== Sys2Proof/Machine/EngineRun.lean ====
section
/-! DEFINITION. Engine commands as they run: the check of a granule (R162), the landing of data (R95, R112, R150, R163), the
end of a command (R110, R162, R189), Stevedore pushes (R430), and the results of slots (R92, R94, R145). -/

namespace Sys2Proof.Machine

/-! ## The transfers of a command, in runs -/

/-- A destination in a FIFO-mode bank. -/
def Cluster.fifoPlace (k : Cluster) (p : Place) : Bool :=
  match p with
  | .spad b => k.inFifo (b / 8)
  | _ => false

/-- The bit address of a place. -/
def Place.bit (p : Place) : Nat :=
  match p with
  | .virt b => b
  | .spad b => b
  | .side a v => 8 * a + v

/-- The exact in-place transpose in pairs of elements that change places (R182). -/
def swapPairs (c : Nat) (l : List Xfer) : List Xfer :=
  ((List.range c).map fun j => ((List.range (j + 1)).map fun i =>
    ((l.drop (j * c + i)).take 1) ++ ((l.drop (i * c + j)).take 1)).flatten).flatten

/-- A copy that exchanges elements in place, in scratchpad or memory. -/
def Cluster.swaps (k : Cluster) (w : Work) : Bool :=
  match w with
  | .copy n => n.inPlace [1, 0] && !(n.xfers.any fun x => k.fifoPlace x.dst)
  | _ => false

/-- The 4 KiB granules of virtual memory that a place touches. -/
def Place.granules (p : Place) (w : Nat) : List Nat :=
  match p with
  | .virt b => unitsOf 4096 (b / 8) ((b % 8 + w + 7) / 8 + (if w = 0 then 1 else 0))
  | _ => []

/-- The granules of a transfer's source and destination. -/
def Xfer.srcGranules (x : Xfer) : List Nat :=
  match x.src with
  | some p => p.granules x.width
  | none => []
def Xfer.dstGranules (x : Xfer) : List Nat := x.dst.granules x.width

/-- The place of a transfer in the order by granules: what writes values given comes before data read from elsewhere, as padding
does (R183), and each by its source's granule, or its destination's. -/
def Xfer.group (x : Xfer) : Nat :=
  (if x.src.isSome then 2 ^ 60 else 0) + (match x.srcGranules, x.dstGranules with
    | g :: _, _ => g + 1
    | [], g :: _ => g + 1
    | [], [] => 0)

/-- The FIFO-mode bank in which a transfer's source lies. -/
def Cluster.fifoBank (k : Cluster) (x : Xfer) : Option Nat :=
  (x.src.filter k.fifoPlace).map fun p => p.bit / 8 / bankSize
def Cluster.fifoSrc (k : Cluster) (x : Xfer) : Bool := (k.fifoBank x).isSome

/-- Transfers in the order of their granules, each completed once it has begun (R162); out of a FIFO as they stand (R150). -/
def Cluster.byGranule (k : Cluster) (l : List Xfer) : List Xfer :=
  if l.any k.fifoSrc then l else l.insertionSort fun x y => x.group ≤ y.group

/-- The transfers of a command in the order in which they are made: granule by granule; of a command that writes into a FIFO the
padding elsewhere first (R183), then what goes into the FIFO by address (R150), then the rest. DEDUCED (log 10). -/
def State.transfers (s : State) (k : Command) : List Xfer :=
  let l := k.work.xfers
  let cl := s.cluster (clusterOf k.core)
  let into (x : Xfer) : Bool := cl.fifoPlace x.dst
  let rest := cl.byGranule (l.filter fun x => !(into x))
  let fifo := (l.filter into).insertionSort fun x y => x.dst.bit ≤ y.dst.bit
  if cl.swaps k.work then
    match k.work with
    | .copy n => swapPairs ((n.dims.head?.map NestDim.count).getD 0) l
    | _ => l
  else if fifo.isEmpty then rest
  else (rest.filter fun x => x.src.isNone) ++ fifo ++ rest.filter fun x => x.src.isSome

/-- The bytes read of each FIFO, with those of one more transfer, and of a list. -/
def Cluster.fifoStep (k : Cluster) (m : Map Nat) (x : Xfer) : Map Nat :=
  match k.fifoBank x with
  | some n => Map.set m n (Map.getD m n 0 + x.width / 8)
  | none => m
def Cluster.fifoRead (k : Cluster) (l : List Xfer) : Map Nat := l.foldl k.fifoStep []

/-- The transfers of a list that take the bytes of one block of a FIFO, p bytes of it being gone. -/
def Cluster.fifoTake (k : Cluster) (bank p : Nat) : List Xfer → List Xfer
  | [] => []
  | x :: l =>
    match k.fifoBank x with
    | none => x :: k.fifoTake bank p l
    | some n =>
      if n ≠ bank then []
      else if p % 128 + x.width / 8 < 128 then x :: k.fifoTake bank (p + x.width / 8) l
      else [x]

/-- The transfers of a list that make up the rest of a block of 128 bytes into one FIFO (R150). -/
def fifoFill (bank p : Nat) : List Xfer → List Xfer
  | [] => []
  | x :: l =>
    if x.dst.bit / 8 / bankSize ≠ bank then []
    else if p + x.width / 8 < 128 then x :: fifoFill bank (p + x.width / 8) l
    else [x]

/-- The transfers made next, at once: those of one granule of each virtual range, of one block of a FIFO, or a pair that
changes places. -/
def State.run (s : State) (k : Command) : List Xfer :=
  let l := s.transfers k
  let cl := s.cluster (clusterOf k.core)
  match l.drop k.done with
  | [] => []
  | x :: t =>
    if cl.swaps k.work then (x :: t).take 2
    else if cl.fifoPlace x.dst then fifoFill (x.dst.bit / 8 / bankSize) 0 (x :: t)
    else if cl.fifoSrc x then
      let n := (cl.fifoBank x).getD 0
      cl.fifoTake n (Map.getD (cl.fifoRead (l.take k.done)) n 0) (x :: t)
    else (x :: t).takeWhile fun y => y.srcGranules == x.srcGranules && y.dstGranules == x.dstGranules &&
      !(cl.fifoSrc y) && !(cl.fifoPlace y.dst)

/-! ## The check of translations (R162, R177) -/

/-- What the check of a run decides. -/
inductive GranuleVerdict where
  | ok (gens : Map Nat) (begun : Map Walk)
  | wait
  | stop (code : Nat)
  | fault (va : Nat) (write : Bool)
  /-- No port reaches the other package (R232, R234). -/
  | lost (pa : Nat) (write : Bool)
  deriving DecidableEq, Repr

/-- The permissions that a command needs of a granule it reads or writes. -/
def Command.allowed (k : Command) (w : Walk) (write : Bool) : Bool :=
  (match k.work with
    | .acch .. => w.atm && w.w && !w.ms
    | .lines .. => w.rd
    | _ => if write then w.w else w.rd) && (!k.needCrit || w.crit) && (!k.needMs || w.ms)

/-- The command is an ACCH. -/
def Command.isAcch (k : Command) : Bool :=
  match k.work with
  | .acch .. => true
  | _ => false

/-- The number under which a command keeps the translation of a granule it has begun. -/
def begunKey (g : Nat) (write : Bool) : Nat := 2 * g + if write then 1 else 0

/-- The translation under which a command accesses a virtual address: that of a granule it has begun (R162). -/
def State.pageOf (s : State) (k : Command) (va : Nat) (write : Bool) : Walk :=
  (Map.get? k.begun (begunKey (va / 4096) write)).getD (s.walk va)

/-- The number of a page among those whose generation a command has met: of the 64 KiB or the 32 MiB page of an address (R155,
R162). -/
def genKey (large : Bool) (va : Nat) : Nat := if large then 2 ^ 60 + va / 2 ^ 25 else va / 2 ^ 16

/-- The page of an address has been revoked since a command first translated it (R161, R162). -/
def Walk.stale (w : Walk) (gens : Map Nat) (va : Nat) : Bool :=
  [true, false].any fun large =>
    match Map.get? gens (genKey large va) with
    | some g => !w.hasLeaf || g != w.gen
    | _ => false

/-- A command of PREF, PIN or UNPN, which skips the lines of other packages (R401). -/
def Command.isLines (k : Command) : Bool :=
  match k.work with
  | .lines .. => true
  | _ => false

/-- The check of one granule by a command with the generations it has met, and what it has begun; a granule begun is completed under
its translation (R162); an ACCH to a package that no port reaches is resent (R234). DEDUCED (log 18). -/
def State.granule (s : State) (k : Command) (g : Nat) (write : Bool) (gens : Map Nat) (begun : Map Walk) : GranuleVerdict :=
  let va := 4096 * g
  let w := s.translate va
  if (Map.get? begun (begunKey g write)).isSome then .ok gens begun
  else if w.hasLeaf && w.mig then .wait
  else if w.stale gens va then .stop tHandleStale
  else if w.fault = tPageFault then .fault va write
  else if w.fault = tPoison && write then .stop tPoison
  else if w.fault ≠ 0 && w.fault != tPoison then .stop tProt
  else if !k.allowed w write then .stop tProt
  else if k.isAcch && s.target (w.pa va) == .host then .stop tProt
  else if s.unreachable (w.pa va) && !k.isAcch && !k.isLines then .lost (w.pa va) write
  else .ok (Map.set gens (genKey w.large va) w.gen) (Map.set begun (begunKey g write) w)

/-- The granules of a run, sources first. -/
def runGranules (l : List Xfer) : List (Nat × Bool) :=
  ((l.map fun x => x.srcGranules.map fun g => (g, false)).flatten ++
    (l.map fun x => x.dstGranules.map fun g => (g, true)).flatten).dedup

/-- The check of a run: its granules, sources first. -/
def State.granules (s : State) (k : Command) (l : List Xfer) : GranuleVerdict :=
  (runGranules l).foldl (fun (v : GranuleVerdict) g => match v with
    | .ok gens begun => s.granule k g.1 g.2 gens begun
    | v => v) (.ok k.gens k.begun)

/-- The channels of leaves that do not read alike charged, for the granules that a run begins (R157). -/
def State.chargeRun (s : State) (k : Command) (l : List Xfer) : State :=
  ((runGranules l).filter fun g => (Map.get? k.begun (begunKey g.1 g.2)).isNone).foldl
    (fun (t : State) g => t.chargeWalk (s.translate (4096 * g.1))) s

/-- The transfers that a command has still to make; of a COLL those of the result that it awaits. -/
def State.toMake (s : State) (k : Command) : List Xfer :=
  match k.work with
  | .coll j => if j.receives then (Work.result j.destSpad j.dest j.size 0 false 0).xfers else []
  | _ => (s.transfers k).drop k.done

/-- A command of the task that was issued earlier on the same path, a held one at its release (R183, R242). -/
def Command.follows (k : Command) (id : Nat) (e : Nat × Command) : Bool :=
  e.1 != id && decide (e.2.order < k.order) && e.2.core == k.core && e.2.task == k.task && e.2.path == k.path && !e.2.held

/-- The place of a source entry. -/
def Source.place (x : Source) : Place := .spad (8 * x.addr)

/-- A place that a command writes, in physical memory, so that two pages of one frame are one; a page without a leaf stands for
itself. -/
def State.framed (s : State) (k : Command) (p : Place) : Place :=
  match p with
  | .virt b =>
    let w := s.pageOf k (b / 8) true
    .virt (if w.hasLeaf then 8 * w.pa (b / 8) + b % 8 else 2 ^ 64 + b)
  | p => p

/-- A command that it follows has still to write bytes of a run (R183, R242), or to read them. -/
def State.mustFollow (s : State) (id : Nat) (k : Command) (l : List Xfer) : Bool :=
  s.commands.any fun e => k.follows id e &&
    ((s.toMake e.2).any (fun x => l.any fun y => (s.framed k y.dst).meets y.width (s.framed e.2 x.dst) x.width) ||
      e.2.unread.any fun x => l.any fun y => x.place.meets (8 * x.size) y.dst y.width)

/-- A command that it follows has still to write bytes of its source entries (R183). -/
def State.readsAfter (s : State) (id : Nat) (k : Command) : Bool :=
  s.commands.any fun e => k.follows id e &&
    (s.toMake e.2).any fun x => k.unread.any fun y => y.place.meets (8 * y.size) x.dst x.width

/-- The head of a queue as the segments have freed it: the open one holds the freeing of what it has popped (R241). -/
def Berth.freedHead (x : Berth) (q : Nat) : BitVec 16 :=
  match x.ckpt with
  | some r => (r.queue q).head
  | none => (x.regs.queue q).head

/-- The berth whose commands read the entries of a berth's queues: of a redundant pair the even member (R249). -/
def State.reader (s : State) (c b : Nat) : Nat × Nat :=
  match (s.berth c b).task.bind Task.partner with
  | some (d, e) => if c % 2 = 1 then (d, e) else (c, b)
  | none => (c, b)

/-- The head of a queue of a berth as freed: a slot is not freed, either, until the commands that have it as a source entry have
read it (R94). -/
def State.freedHead (s : State) (c b q : Nat) : BitVec 16 :=
  let x := s.berth c b
  let mine (k : Command) : Bool := (k.core, k.berth) == s.reader c b && x.task.map Task.uid == some k.task
  let l := (s.commands.filter fun e => mine e.2).map fun e => e.2.unread.filter fun y => y.queue == q
  l.flatten.foldl (fun (h : BitVec 16) y => if (h - y.counter).toNat < 2 ^ 15 then y.counter else h) (x.freedHead q)

/-- The heads of a berth's FED queues that are freed further than they were sent to their producers (R98, R241). -/
def State.sendHeads (s : State) (old : State) (c b : Nat) : State :=
  (List.range 4).foldl (fun (t : State) n =>
    let q := (s.berth c b).regs.queue n
    if q.splice = .fed ∧ s.freedHead c b n ≠ old.freedHead c b n then
      t.send (.head q.peerCore q.peerBerth q.peerQueue (s.freedHead c b n))
    else t) s

/-- The data of a command go to a slot whose freeing the open segment holds, and its berth's next bundle does not wait for it
(R94, R241, log 25). -/
def State.slotHeld (s : State) (k : Command) : Bool :=
  match k.append with
  | some (q, c, a) =>
    let x := s.berth k.core k.berth
    x.task.map Task.uid == some k.task && x.awaits != some a &&
      decide ((x.regs.queue q).cap ≤ (c - s.freedHead k.core k.berth q).toNat)
  | none => false

/-- The FIFOs that a run reads or writes can take part: the blocks that it reads have been written, and a full one is not written
(R150). -/
def State.fifoReady (s : State) (k : Command) (l : List Xfer) : Bool :=
  let cl := s.cluster (clusterOf k.core)
  let gone := cl.fifoRead ((s.transfers k).take k.done)
  ((l.foldl cl.fifoStep gone).all fun e =>
      decide ((e.2 + 127) / 128 ≤ Map.getD gone e.1 0 / 128 + (cl.bank e.1).fifo.length) || e.2 == Map.getD gone e.1 0) &&
    l.all fun x => match x.dst with
      | .spad b => !(cl.inFifo (b / 8)) || decide ((cl.bank (b / 8 / bankSize)).fifo.length < 1024)
      | _ => true

/-! ## Bytes written (R112) -/

/-- The bytes of a place of some bits: (true for scratchpad, address). -/
def Place.bytes (p : Place) (width : Nat) : List (Bool × Nat) :=
  if width = 0 then []
  else
    match p with
    | .virt b => (List.range ((b % 8 + width + 7) / 8)).map fun i => (false, b / 8 + i)
    | .spad b => (List.range ((b % 8 + width + 7) / 8)).map fun i => (true, b / 8 + i)
    | .side _ _ => []

/-- The bytes of a transfer's destination and source. -/
def Xfer.dstBytes (x : Xfer) : List (Bool × Nat) := x.dst.bytes x.width
def Xfer.srcBytes (x : Xfer) : List (Bool × Nat) := (x.src.map fun p => p.bytes x.width).getD []

/-- The distinct bytes that a list of transfers writes. -/
def bytesOf (l : List Xfer) : List (Bool × Nat) := ((l.map Xfer.dstBytes).flatten).dedup

/-- The 128-byte block of a byte. -/
def blockOf (x : Bool × Nat) : Bool × Nat := (x.1, x.2 / 128)

/-- The blocks of a list of transfers. -/
def blocksOf (l : List Xfer) : List (Bool × Nat) := ((bytesOf l).map blockOf).dedup

/-- The bytes of a block that a list of transfers writes. -/
def countIn (l : List Xfer) (b : Bool × Nat) : Nat := ((bytesOf l).filter fun x => blockOf x == b).length

/-- Whether a launch may access a scratchpad range of a cluster as an engine. -/
def Cluster.engineMay (k : Cluster) (slot addr n : Nat) : Bool := (k.rangeError slot engineMode addr n).isNone

/-- A discarded write of a command recorded, once (R50). -/
def State.recordLoss (s : State) (k : Command) (n : Nat) : State × Command :=
  if k.lost then (s, k)
  else (s.engineRecord k.core k.berth k.task (engineWord tBankOwner k.op n), { k with lost := true })

/-- The first n transfers of a command, without those whose writes were discarded. -/
def Command.kept (k : Command) (all : List Xfer) (n : Nat) : List Xfer :=
  ((all.take n).zipIdx.filter fun x => !(k.dropped.contains x.2)).map Prod.fst

/-- The sync word of a command changed, an access on its path (R188, R192); in a bank that is no longer the launch's the write is
discarded (R48, R50). -/
def State.onSync (s : State) (k : Command) (n : Nat) (f : Memory → Nat → Memory) : State × Command :=
  match k.sync with
  | some a =>
    let cl := clusterOf k.core
    if (s.cluster cl).engineMay k.slot a 16 then
      let (s, ts) := (s.onSpad cl fun m => f m a).stampSpad cl true k.pts a 16
      (s, { k with maxTs := max k.maxTs ts })
    else s.recordLoss k n
  | none => (s, k)

/-- The tagged writes that end with a run: the blocks that no later transfer of the command touches, each counted by its bytes that
landed (R112). -/
def State.countRun (s : State) (k : Command) (all : List Xfer) (start n : Nat) : State × Command :=
  let rest := bytesOf (all.drop n)
  let kept := k.kept all n
  ((blocksOf ((all.take n).drop start)).filter fun b =>
      !(rest.any fun x => blockOf x == b) && decide (0 < countIn kept b)).foldl
    (fun (x : State × Command) b =>
      x.1.onSync x.2 (bytesOf kept).length fun m a => countSync m a (countIn kept b)) (s, k)

/-! ## Data -/

/-- The value that a transfer moves, as the state stands before its run: its bits, and whether they carry a poison mark. The bytes read
of each FIFO are given, those before the run and those before the transfer. -/
def State.fetch (s : State) (k : Command) (gone read : Map Nat) (x : Xfer) : Nat × Bool :=
  let cl := s.cluster (clusterOf k.core)
  match x.src with
  | none => (x.value, x.mark)
  | some (.virt b) =>
    let w := s.pageOf k (b / 8) false
    (readBits (fun a => s.mem.byte ((s.pageOf k a false).pa a)) b x.width, s.marksData (w.pa (b / 8)) || w.fault == tPoison)
  | some (.spad b) =>
    if cl.inFifo (b / 8) then
      let n := b / 8 / bankSize
      let p := Map.getD read n 0
      match (cl.bank n).fifo[p / 128 - Map.getD gone n 0 / 128]? with
      | some (d, m) => (bits d (8 * (p % 128)) x.width, m)
      | none => (0, false)
    else (readBits cl.spad.byte b x.width, (cl.block (b / 8)).mark)
  | some (.side a v) => (bits (cl.block a).sideband (32 * v) x.width, false)

/-- The values of a run, in order. -/
def State.fetchAll (s : State) (k : Command) (gone : Map Nat) : Map Nat → List Xfer → List (Xfer × Nat × Bool)
  | _, [] => []
  | p, x :: l => (x, s.fetch k gone p x) :: s.fetchAll k gone ((s.cluster (clusterOf k.core)).fifoStep p x) l

/-- What a run does to a physical line: the line, its page's MS attribute, the bytes, and the sectors touched and covered. -/
structure LineUse where
  write : Bool
  line : Nat
  ms : Bool
  bytes : Nat
  hit : List Nat
  whole : List Nat
  deriving DecidableEq, Repr

/-- The lines that a command's accesses to some virtual bytes touch. -/
def State.lineUses (s : State) (k : Command) (write : Bool) (l : List (Bool × Nat)) : List LineUse :=
  let l := (l.filter fun x => !x.1).map fun x => ((s.pageOf k x.2 write).pa x.2, (s.pageOf k x.2 write).ms)
  ((l.map fun x => (x.1 / 256, x.2)).dedup).map fun n =>
    let mine := (l.filter fun x => x.1 / 256 == n.1).map fun x => x.1 % 256 / 64
    let count (i : Nat) : Nat := (mine.filter fun j => j == i).length
    { write := write, line := n.1, ms := n.2, bytes := mine.length
      hit := (List.range 4).filter fun i => count i != 0, whole := (List.range 4).filter fun i => count i == 64 }

/-- The lines of a run, read and written. -/
def State.runLines (s : State) (k : Command) (l : List Xfer) : List LineUse :=
  s.lineUses k false ((l.map Xfer.srcBytes).flatten).dedup ++ s.lineUses k true (bytesOf l)

/-- The source of a command's requests: the Stevedore of its quay on the STEVE path, else its core (R227, R429). -/
def Command.source (k : Command) : Nat :=
  if k.path = pSteve then stevedoreSource (clusterOf k.core) else coreSource k.core

/-- A request for a line and its reply carried: data on BULK, to the home slice, and for an MS page on to the memory-side unit, or
to the I/O die (R215, R219, R220, R231, R232). -/
def State.lineTrip (s : State) (source : Nat) (u : LineUse) : State :=
  let data : PacketKind := pkData u.bytes
  let request := if u.write then data else pkRequest
  let reply := if u.write then pkAnswer else { data with markable := false }
  match s.target (256 * u.line) with
  | .dram =>
    let s := s.roundTrip source (s.homeSlice (256 * u.line)) request reply
    if u.ms then s.dramTrip u.line request reply else s
  | _ => s.ioTrip source request reply

/-- The first slice of some lines for which a source's window is full (R227). -/
def State.closedSlice (s : State) (source : Nat) (l : List Nat) : Option Nat :=
  (((l.map fun n => 256 * n).filter fun a => s.target a == .dram).map s.homeSlice).find? fun h => !s.windowOpen source h

/-- The accesses of a run to memory and scratchpad are carried, and take their logical times from the clock of the command
(R192, R194); what follows the command's padding, after its padding (R183). -/
def State.stampRun (s : State) (k : Command) (l : List Xfer) : State × Nat :=
  let pts := if (s.transfers k).any fun x => x.src.isNone then max k.pts k.maxTs else k.pts
  let line (t : State × Nat) (u : LineUse) : State × Nat :=
    let s := (t.1.lineTrip k.source u).bring u.ms u.line
    if s.lineKind u.ms u.line = .untimed then (s, t.2)
    else
      let ts := accessTs u.write pts [s.lineTs u.ms u.line]
      (s.markLine u.write u.ms u.line ts u.hit u.whole, max t.2 ts)
  let place (t : State × Nat) (w : Nat) (write : Bool) (p : Place) : State × Nat :=
    match p with
    | .spad b =>
      let (s', ts) := t.1.stampSpad (clusterOf k.core) write pts (b / 8) ((b % 8 + w + 7) / 8)
      (s', max t.2 ts)
    | _ => t
  let t := (s.runLines k l).foldl line (s, k.maxTs)
  l.foldl (fun (t : State × Nat) x =>
    let t := match x.src with
      | some p => place t x.width false p
      | none => t
    place t x.width true x.dst) t

/-- The number that stands for a scratchpad block among a command's tainted places. -/
def spadTaint (a : Nat) : Nat := 2 ^ 60 + a / 128

/-- A transfer's bytes stored. A write to a bank that the launch no longer owns is discarded (R50): the second component
tells. -/
def State.deposit (s : State) (k : Command) (x : Xfer) (v : Nat) (mark : Bool) : State × Bool :=
  let c := clusterOf k.core
  let cl := s.cluster c
  match x.dst with
  | .virt b =>
    let at_ (a : Nat) : Nat := (s.pageOf k a true).pa a
    let l := writtenBytes (fun a => s.mem.byte (at_ a)) b x.width v
    let s := l.foldl (fun (t : State) y => t.putMem (at_ y.1) 1 y.2.toNat) s
    let s := s.refreshL1 c (at_ (b / 8)) l.length
    (if mark then s.taint (at_ (b / 8)) true else s, false)
  | .spad b =>
    if !cl.engineMay k.slot (b / 8) ((b % 8 + x.width + 7) / 8) then (s, true)
    else
      let l := writtenBytes cl.spad.byte b x.width v
      let s := s.onSpad c fun m => l.foldl (fun (m : Memory) y => m.put y.1 y.2) m
      (if mark then
          s.setCluster c ((s.cluster c).setBlock (b / 8) { (s.cluster c).block (b / 8) with mark := true })
        else s, false)
  | .side a i =>
    let t := cl.block a
    if !cl.engineMay k.slot a 128 then (s, true)
    else (s.setCluster c (cl.setBlock a { t with sideband := setBits t.sideband (32 * i) 32 v }), false)

/-- Values put together in their order, from bit p on. -/
def joinBits (p : Nat) : List (Xfer × Nat × Bool) → Nat
  | [] => 0
  | y :: l => y.2.1 % 2 ^ y.1.width * 2 ^ p + joinBits (p + y.1.width) l

/-- A block of FIFO data appended (R150): the values of the run in address order, one after the other.
DESIGN CHOICE (log 41). -/
def State.pushFifo (s : State) (k : Command) (l : List (Xfer × Nat × Bool)) : State :=
  let c := clusterOf k.core
  match l with
  | [] => s
  | x :: _ =>
    let d := joinBits 0 l
    s.setCluster c ((s.cluster c).onBank (x.1.dst.bit / 8 / bankSize) fun b =>
      { b with fifo := b.fifo ++ [(d, l.any fun y => y.2.2)] })

/-- The blocks of each FIFO whose bytes a run has read removed from its head (R150), where the bytes read before it and after it are
given; at the end of the command a block of which it has read a part too. DESIGN CHOICE (log 41). -/
def State.popFifo (s : State) (k : Command) (gone read : Map Nat) (last : Bool) : State :=
  let c := clusterOf k.core
  read.foldl (fun (s : State) e =>
    s.setCluster c ((s.cluster c).onBank e.1 fun b =>
      { b with fifo := b.fifo.drop ((if last then (e.2 + 127) / 128 else e.2 / 128) - Map.getD gone e.1 0 / 128) })) s

/-- Marks of scratchpad blocks, in banks of the launch, that a command has covered with unmarked data are cleared (R50, R163). -/
def State.cleanBlocks (s : State) (k : Command) (all : List Xfer) : State :=
  let c := clusterOf k.core
  ((blocksOf all).filter fun b => b.1 && !(k.tainted.contains (2 ^ 60 + b.2)) && countIn all b == 128 &&
      (s.cluster c).engineMay k.slot (128 * b.2) 128).foldl
    (fun (s : State) b =>
      s.setCluster c ((s.cluster c).setBlock (128 * b.2) { (s.cluster c).block (128 * b.2) with mark := false })) s

/-- Poison bits of granules that a command has covered with unmarked data are cleared, in the frames that it has written (R163). -/
def State.cleanGranules (s : State) (k : Command) (all : List Xfer) : State :=
  let virt := (bytesOf all).filter fun x => !x.1
  k.frames.foldl (fun (t : State) f =>
    if (virt.filter fun x => x.2 / 4096 == f.1).length = 4096 ∧ !(k.tainted.contains f.2) then t.taint (4096 * f.2) false
    else t) s

/-- A command replaced. -/
def State.setCommand (s : State) (id : Nat) (k : Command) : State := { s with commands := Map.set s.commands id k }

/-- The data of a run written, in order from place n on; the places of the transfers whose writes are discarded (R50). -/
def State.depositAll (s : State) (k : Command) (n : Nat) (data : List (Xfer × Nat × Bool)) : State × List Nat :=
  let cl := s.cluster (clusterOf k.core)
  match data.head? with
  | none => (s, [])
  | some x =>
    if cl.fifoPlace x.1.dst then
      if cl.engineMay k.slot (x.1.dst.bit / 8) 1 then (s.pushFifo k data, []) else (s, (List.range data.length).map (n + ·))
    else
      data.zipIdx.foldl (fun (t : State × List Nat) y =>
        let (s', d) := t.1.deposit k y.1.1 y.1.2.1 y.1.2.2
        (s', if d then t.2 ++ [n + y.2] else t.2)) (s, [])

/-- The granules that a command stays within: those of the transfer that comes next (R162). -/
def Command.leave (k : Command) (next : Option Xfer) : Command :=
  let l := (next.map fun x => runGranules [x]).getD []
  { k with begun := k.begun.filter fun (e : Nat × Walk) => l.any fun g => begunKey g.1 g.2 == e.1 }

/-- The overflow bits of the lines of a COLL's result of which a lane saturated, for the bytes of a run (R137, R230). -/
def State.markLanes (s : State) (k : Command) (l : List Xfer) : State :=
  match k.work with
  | .result false dest size _ _ lanes =>
    let lanes := (List.range (size / 8)).filter fun i => bit lanes i && l.any fun x => x.dst.bit / 64 == (dest + 8 * i) / 8
    { s with ovf := lanes.foldl (fun (m : Map Bool) i =>
        let va := dest + 8 * i
        Map.set m ((s.pageOf k va true).pa va / 256) true) s.ovf }
  | _ => s

/-- The bytes of the entry that a command fills. -/
def Command.entrySize (k : Command) : Nat :=
  match k.work with
  | .load t => t.esize
  | _ => 0

/-- The frames of the granules of virtual memory that a run writes. -/
def State.runFrames (s : State) (k : Command) (l : List Xfer) : Map Nat :=
  ((l.map Xfer.dstGranules).flatten.dedup).foldl (fun (m : Map Nat) g =>
    Map.set m g ((s.pageOf k (4096 * g) true).pa (4096 * g) / 4096)) k.frames

/-- A run landed: its sources are read, then its destinations written; what the command then has marked. -/
def State.landRun (s : State) (k : Command) (l : List Xfer) : State × Command :=
  let all := s.transfers k
  let cl := s.cluster (clusterOf k.core)
  let n := k.done + l.length
  let gone := cl.fifoRead (all.take k.done)
  let data := s.fetchAll k gone gone l
  let (s, ts) := s.stampRun k l
  let (s, out) := s.depositAll k k.done data
  let s := s.markLanes k l
  let s := s.popFifo k gone (l.foldl cl.fifoStep gone) (n == all.length)
  let taint := (data.filter fun y => y.2.2).map fun y => match y.1.dst with
    | .virt b => (s.pageOf k (b / 8) true).pa (b / 8) / 4096
    | p => spadTaint (p.bit / 8)
  let k' : Command := { k with
    done := n, checked := false, maxTs := ts, tainted := k.tainted ++ taint, frames := s.runFrames k l, dropped := k.dropped ++ out
    marked := k.marked || data.any fun y => y.2.2 && (match y.1.dst with
      | .side _ _ => true
      | _ => false) }
  let (s, k') := if out.isEmpty then (s, k') else s.recordLoss k' (bytesOf (k'.kept all k.done)).length
  let (s, k') := s.countRun k' all k.done n
  (s, k'.leave (all[n]?))

/-! ## Matrix operands of a CPYM (R186) -/

/-- The bytes of an operand entry of an operation. -/
def MatrixOp.sizeA (o : MatrixOp) : Nat := if o.kind = 1 then 4096 else ((operandShape false o.fmtA).map fun x => x.2.2).getD 4096
def MatrixOp.sizeB (o : MatrixOp) : Nat := ((operandShape true o.fmtB).map fun x => x.2.2).getD 4096

/-- The operand entries that an operation waits for, with their sizes. -/
def MatrixOp.awaited (o : MatrixOp) : List (Nat × Nat) :=
  (o.addrA.toList.map fun a => (a, o.sizeA)) ++ o.addrB.toList.map fun b => (b, o.sizeB)

/-- The bytes and sideband of an operand entry that has landed; an operand whose entry carries a mark consumes poison. -/
def captureOp (cl : Cluster) (o : MatrixOp) : MatrixOp :=
  let o := match o.addrA with
    | some a =>
      if (cl.block a).present then
        { o with addrA := none, a := cl.spad.read a o.sizeA,
                 scaleA := (cl.block a).sideband }
      else o
    | none => o
  match o.addrB with
  | some b =>
    if (cl.block b).present then
      { o with addrB := none, groups := [(32, cl.spad.read b o.sizeB, (cl.block b).sideband)] }
    else o
  | none => o

/-- The operations of a half-array that consume poison: an operand that has landed carries a mark (R163). -/
def markedOperand (cl : Cluster) (o : MatrixOp) : Option Nat :=
  o.awaited.findSome? fun a => if (cl.block a.1).present then cl.marked a.1 (a.2 / 128) else none

/-- The operands of an operation that have landed read, on the QREAD path of its berth (R188, R192). -/
def State.readOperands (s : State) (c : Nat) (cl : Cluster) (o : MatrixOp) : State :=
  o.awaited.foldl (fun (s : State) a =>
    if (cl.block a.1).present then s.touchSpad c o.berth pQread false a.1 a.2 else s) s

/-- A follow-on of the odd member of a pair that has issued it ahead of the even member waits for that member's command, whatever stands
at the addresses of its operands (R249). -/
def State.waitsForTwin (s : State) (c : Nat) (o : MatrixOp) : Bool :=
  o.slot == 5 && o.after.isNone && (match (s.berth c o.berth).task.bind Task.partner with
    | some (d, e) => decide ((s.berth d e).issued ≤ o.bundle)
    | none => false)

/-- The operations of a core that wait for operands take those that have landed. -/
def State.capture (s : State) (c : Nat) : State :=
  let cl := s.cluster (clusterOf c)
  let k := s.core c
  let takes (o : MatrixOp) : Bool := !(s.waitsForTwin c o)
  let l := (k.half0 ++ k.half1).filter takes
  let waits := l.any fun o => o.addrA.isSome || o.addrB.isSome
  if !waits then s
  else
    let bad := l.filterMap fun o => (markedOperand cl o).map fun a => (o, a)
    let s := l.foldl (fun (s : State) o => s.readOperands c cl o) s
    let k := s.core c
    let keep (l : List MatrixOp) : List MatrixOp :=
      (l.filter fun o => !(takes o) || (markedOperand cl o).isNone).map fun o => if takes o then captureOp cl o else o
    let s := (s.setCore c { k with half0 := keep k.half0, half1 := keep k.half1 }).endHold c
    let s := bad.foldl (fun (s : State) x =>
      s.raiseError c x.1.berth { code := tPoison, slot := x.1.slot, timm := 0, info := sub 1 x.2 } false) s
    (s.later (.matrixPromotion c 0 0)).later (.matrixPromotion c 1 0)

/-- The operations of a cluster's cores take operands that have landed. -/
def State.captureAll (s : State) (cl : Nat) : State :=
  (List.range 16).foldl (fun (s : State) i => s.capture (16 * cl + i)) s

/-- The follow-on of a command that stopped is dropped (R343). -/
def State.dropFollow (s : State) (c id : Nat) : State :=
  let drop (c : Nat) (s : State) : State :=
    let k := s.core c
    let keep (l : List MatrixOp) : List MatrixOp := l.filter fun o => o.after != some id
    if (k.half0 ++ k.half1).any fun o => o.after == some id then
      (((s.setCore c { k with half0 := keep k.half0, half1 := keep k.half1 }).endHold c).later
        (.matrixPromotion c 0 0)).later (.matrixPromotion c 1 0)
    else s
  drop (c / 2 * 2 + 1 - c % 2) (drop c s)

/-! ## The end of a command -/

/-- An entry becomes present; without a sideband of its own it takes ones (R127). -/
def State.present (s : State) (cl addr n : Nat) (ones mark : Bool) : State :=
  let k := s.cluster cl
  let k := if mark then k.onBlocks addr (n / 128) fun b => { b with mark := true } else k
  let b := k.block addr
  (s.setCluster cl (k.setBlock addr
    { b with present := true, unit := 0, sideband := if ones then onesSideband else b.sideband })).captureAll cl

/-- The clock of a path after a command is performed (R194): of its berth while its task is there, and the core's floor. -/
def State.performed (s : State) (k : Command) : State :=
  if ((s.berth k.core k.berth).task.map Task.uid) = some k.task then s.raisePts k.core k.berth k.path k.maxTs
  else
    let c := s.core k.core
    s.setCore k.core { c with floors := vset c.floors k.path (max (vget c.floors k.path 0) k.maxTs) }

/-- The subscription of a berth changed. -/
def State.onSub (s : State) (c b n : Nat) (f : Sub → Sub) : State :=
  s.onBerth c b fun x => { x with subs := x.subs.map fun (e : Nat × Sub) => if e.1 = n then (n, f e.2) else e }

/-- A queue is no longer subscribed; a rewind of the open segment does not restore its tail to before that (R431). -/
def Berth.unsubscribe (x : Berth) (q : Nat) : Berth :=
  { x with
    regs := x.regs.putQ q { x.regs.queue q with subscribed := false }
    ckpt := x.ckpt.map fun r => r.putQ q { r.queue q with subscribed := false, tail := (x.regs.queue q).tail } }

/-- The end of a subscription whose tiles have all landed and, unless it is read only, come back (R430); one of the open segment
is kept until its commit, for a rewind (R431). -/
def State.subEnds (s : State) (c b n : Nat) : State :=
  match (s.berth c b).sub? n with
  | none => s
  | some x =>
    let back := s.commands.any fun e =>
      (e.2.core, e.2.berth) == s.reader c b && e.2.op == 0xF && e.2.push == some n && !e.2.held
    if x.landed = x.count ∧ (x.readOnly ∨ (x.returned = x.count ∧ !back)) then
      if x.fresh then s.onSub c b n fun t => { t with ended := true }
      else s.onBerth c b fun y => { y with subs := Map.erase y.subs n }
    else s

/-- A tile of a subscription has landed in a member's queue; after the last the queue is no longer subscribed (R430). -/
def State.tileLanded (s : State) (c b n : Nat) : State :=
  let s := s.onSub c b n fun x => { x with landed := x.landed + 1 }
  match Map.get? (s.berth c b).subs n with
  | none => s
  | some x => (if x.landed = x.count then s.onBerth c b fun y => y.unsubscribe x.queue else s).subEnds c b n

/-- The subscriptions of a berth and of the other member of its pair under a number changed alike (R431). -/
def State.onSubs (s : State) (c b n : Nat) (f : Sub → Sub) : State :=
  let s := s.onSub c b n f
  match (s.berth c b).task.bind Task.partner with
  | some (d, e) => s.onSub d e n f
  | none => s

/-- A tile has landed, or an entry returned by RETS has reached memory. -/
def State.pushed (s : State) (k : Command) : State :=
  match k.push with
  | some n =>
    if k.op = 0xE then s.tileLanded k.core k.berth n
    else
      let s := s.subEnds k.core k.berth n
      match (s.berth k.core k.berth).task.bind Task.partner with
      | some (d, e) => s.subEnds d e n
      | none => s
  | none => s

/-- The buffer that a copy releases becomes FULL, if every byte has landed, at the time of the copy's last access (R50, R110,
R192). -/
def State.releaseBuffer (s : State) (k : Command) : State :=
  match (if k.dropped.isEmpty then k.rel else none) with
  | some (r, a) =>
    match (s.cluster (clusterOf k.core)).ring r with
    | some g =>
      match g.release a false, g.bufferAt a with
      | some h, some i => s.setRing (clusterOf k.core) r { h with times := Map.set h.times i k.maxTs }
      | _, _ => s
    | none => s
  | none => s

/-- The entry that a command fills becomes present, in a bank that is still the launch's; one of which a byte was discarded does not
(R50, R87). -/
def State.presentEntry (s : State) (k : Command) (n : Nat) : State :=
  match k.append, k.work, k.dropped with
  | some (_, _, a), .load t, [] =>
    if (s.cluster (clusterOf k.core)).engineMay k.slot a t.esize then
      s.present (clusterOf k.core) a t.esize (!(Desc.narrow t.desc)) k.marked
    else (s.recordLoss k n).1
  | _, _, _ => s

/-- The end of a command whose accesses are all performed (R110, R145, R163, R189, R194). -/
def State.finish (s : State) (id : Nat) (k : Command) : State :=
  let all := k.kept (s.transfers k) k.done
  let s := (s.cleanBlocks k all).cleanGranules k all
  let s := s.presentEntry k (bytesOf all).length
  let s := (s.releaseBuffer k).performed k
  let s := s.engineFlags k.core k.berth k.task k.flags
  let s : State := { s with
    commands := Map.erase s.commands id, resends := Map.erase s.resends id, sentAt := Map.erase s.sentAt id }
  s.pushed k

/-- A command stopped short (R112, R162, R163, R343, R431): what it has covered stays written, SHORT, the engine record, and what
never follows. -/
def State.stopCommand (s : State) (id : Nat) (k : Command) (code : Nat) : State :=
  let all := s.transfers k
  let written := k.kept all k.done
  let rest := bytesOf (all.drop k.done)
  let n := match k.work with
    | .acch .. => 0
    | _ => (bytesOf written).length
  let s := (s.cleanBlocks k written).cleanGranules k written
  let cut := (blocksOf written).filter fun b => rest.any fun x => blockOf x == b
  let (s, k) := cut.foldl (fun (x : State × Command) b =>
    x.1.onSync x.2 n fun m a => countSync m a (countIn written b)) (s, k)
  let (s, k) := s.onSync k n shortSync
  let s := s.engineRecord k.core k.berth k.task (engineWord code k.op n)
  let s := (s.dropFollow k.core id).performed k
  let s : State := { s with
    commands := Map.erase s.commands id, resends := Map.erase s.resends id, sentAt := Map.erase s.sentAt id }
  match k.push with
  | some n =>
    if k.op = 0xE then s.onSubs k.core k.berth n fun x => { x with stopped := true } else s.pushed k
  | none => s

/-- A command whose access is lost: TRANSPORT_LOST with the address and the class, and the command stops, recording POISON
(R234, R277). -/
def State.loseCommand (s : State) (id : Nat) (k : Command) (pa : Nat) (cls : PacketClass) : State :=
  (s.postQuay (clusterOf k.core) 0x0014 k.slot pa cls.code).stopCommand id k tPoison

/-- The class of an engine's access to memory: requests for data in REQ, data written in BULK (R215). -/
def accessClass (write : Bool) : PacketClass := if write then .bulk else .req

/-- The device posts a PAGE_FAULT event for a suspended command (R165, R277). -/
def State.suspend (s : State) (id : Nat) (k : Command) (va : Nat) (write : Bool) : State :=
  (s.setCommand id { k with suspended := true }).post
    { code := 0x0004, lslot := k.slot, berth := k.berth, core := k.core, arg0 := va,
      arg1 := 1 + (if write then 2 else 0) + k.op * 2 ^ 8, command := some id }

/-! ## Phases (R328) -/

/-- PHASE of a group of a launch as a cluster has recorded it. -/
def phaseKey (cl slot ident : Nat) : Nat := (cl * 16 + slot) * 16 + ident
def State.phase (s : State) (cl slot ident : Nat) : Nat := Map.getD s.phases (phaseKey cl slot ident) 0

/-- The XST of a command sent in packets of up to 256 bytes, with the PHASE of the sending cluster (R215, R440). -/
def State.sendXst (s : State) (id : Nat) (k : Command) : State :=
  match k.work with
  | .xst bytes _ length core ident _ _ _ =>
    let tag := s.phase (clusterOf k.core) k.slot ident
    ((dataPackets length).zipIdx).foldl (fun (s : State) p =>
      s.send (.xst id (clusterOf core) tag (256 * p.2) p.1 (bits bytes (8 * 256 * p.2) (8 * p.1)) false)) s
  | _ => s

/-! ## Source entries (R94, R412, R418, R426, R440) -/

/-- What a command moves, once its source entries are read: the data with their poison marks, and the rows of a SCAT. -/
def Cluster.filled (k : Cluster) (w : Work) (l : List Source) : Work :=
  match w, l with
  | .store t _ _, [x] => .store t (k.spad.read x.addr x.size) (k.marksOf x.addr x.size)
  | .store t _ _, x :: y :: _ =>
    .store { t with rows := some (rowsOf (k.spad.read y.addr y.size)) } (k.spad.read x.addr x.size) (k.marksOf x.addr x.size)
  | .xst _ _ n c g o a b, x :: _ => .xst (k.spad.read x.addr x.size % 2 ^ (8 * n)) (k.marksOf x.addr x.size) n c g o a b
  | w, _ => w

/-- The reads of a command's source entries: those of SCAT on QREAD, others on the command's path (R188, R418). -/
def State.readSources (s : State) (k : Command) : State × Command :=
  if k.op = 7 then
    (k.unread.foldl (fun (s : State) x => s.touchSpad k.core k.berth pQread false x.addr x.size) s, k)
  else s.readFor k k.unread

/-- A command reads its source entries, whose slots are freed: it goes on from there. -/
def State.takeSources (s : State) (id : Nat) (k : Command) : State :=
  let w := (s.cluster (clusterOf k.core)).filled k.work k.unread
  let (t, k) := s.readSources k
  let k : Command := { k with work := w, unread := [] }
  let t := (t.setCommand id k).sendHeads s k.core k.berth
  let t := match (t.berth k.core k.berth).task.bind Task.partner with
    | some (d, e) => t.sendHeads s d e
    | none => t
  if k.held then t
  else
    match k.work with
    | .xst .. => t.sendXst id k
    | _ => t.later (.engineGranuleCheck id)

/-- What is about to be written over entries that commands of a berth have still to read, as the berth's next bundle waits for it, is
read first (R94, log 25). -/
def State.readOver (s : State) (c b addr n : Nat) : State :=
  let hit (k : Command) : Bool := (k.core, k.berth) == s.reader c b &&
    k.unread.any fun x => decide (x.addr < addr + n) && decide (addr < x.addr + x.size)
  (s.commands.filter fun e => hit e.2).foldl (fun (s : State) e =>
    match Map.get? s.commands e.1 with
    | some k => s.takeSources e.1 k
    | none => s) s

/-! ## ENGINE_GRANULE_CHECK (R162, R165, R401) -/

/-- The check of the granules that come next; a command that has still to read its source entries reads them first. -/
def State.granuleCheck (s : State) (id : Nat) : State :=
  match Map.get? s.commands id with
  | none => s
  | some k =>
    if k.held || k.suspended || k.checked || (k.sent && k.isAcch) then s
    else if !k.unread.isEmpty then (if s.readsAfter id k then s else s.takeSources id k)
    else
      match s.run k with
      | [] => s.later (.engineCommandComplete id)
      | l =>
        if s.mustFollow id k l || !s.fifoReady k l || s.slotHeld k then s
        else
          let t := s.chargeRun k l
          match s.granules k l with
          | .ok gens begun => (t.setCommand id { k with checked := true, gens := gens, begun := begun }).later (.engineDataLand id)
          | .wait => s
          | .stop code =>
            if k.op = 8 then { t with commands := Map.erase t.commands id } else t.stopCommand id k code
          | .fault va w =>
            if k.op = 8 then { t with commands := Map.erase t.commands id } else t.suspend id k va w
          | .lost pa w => t.loseCommand id k pa (accessClass w)
def execEngineGranuleCheck (id : Nat) (s : State) : Host.Outcome State Fault Refusal := .next (s.granuleCheck id)

/-! ## ENGINE_DATA_LAND (R95, R152, R204, R316) -/

/-- A line of PREF, PIN or UNPN, an access on the COPY path (R152, R153, R188, R401, R436), and its timestamp: lines of MS pages,
host memory and other packages are skipped. PIN and PREF bring an absent line into L2; a PIN that finds its set wholly pinned
leaves its line unpinned and counts a bypass. -/
def State.pinLine (s : State) (k : Command) (va : Nat) : State × Nat :=
  let w := s.pageOf k va false
  let i := w.pa va / 256
  let n := Map.getD s.pins i 0
  if w.ms ∨ s.target (w.pa va) ≠ .dram then (s, 0)
  else
    let s := s.roundTrip k.source (s.homeSlice (256 * i)) pkRequest pkAnswer
    let s := if k.op = 10 then s else s.bring false i
    let ts := accessTs false k.pts [s.lineTs false i]
    let has := (Map.get? s.lines i).isSome
    let s := if has then s.markLine false false i ts (if k.op = 10 then [] else [0, 1, 2, 3]) [] else s
    let s : State :=
      if k.op = 10 then { s with pins := Map.set s.pins i (n - 1) }
      else if k.op = 9 then
        (if has then { s with pins := Map.set s.pins i (min 255 (n + 1)) } else s.count (s.homeSlice (256 * i)) 0xA)
      else s
    (s, ts)

/-- The lines of a run of PREF, PIN or UNPN, and the command after them. -/
def State.pinLines (s : State) (k : Command) (l : List Xfer) : State × Command :=
  l.foldl (fun (t : State × Command) x =>
    let (s, ts) := t.1.pinLine t.2 ((x.src.map Place.bit).getD 0 / 8)
    (s, { t.2 with maxTs := max t.2.maxTs ts })) (s, k)

/-- The sum of two vectors of 32 a64 values, lane by lane with saturation, and the lanes that saturate as bits (R138,
R204). -/
def addA64 (x y : Nat) : Nat × Nat :=
  let l := (List.range 32).map fun i => satA64 (signed (bits x (64 * i) 64) 64 + signed (bits y (64 * i) 64) 64)
  (packElems 64 (l.map fun z => lowBits z.1 64), packElems 1 (l.map fun z => if z.2 then 1 else 0))

/-- The entry of a residual table that holds a line, in a state that passes ok. -/
def State.findResidual (s : State) (l : Launch) (c b line : Nat) (ok : Nat → Bool) : Option Nat :=
  (List.range 16).find? fun i => (s.residual l c b i).line == line / 256 && ok (s.residual l c b i).state

/-- The end to which an accumulate goes: the home slice of its line, or the I/O die on the way to another package (R228, R232). -/
def State.accEnd (s : State) (line : Nat) : NetEnd :=
  if s.target line = .dram then .quay (s.homeSlice line) else .ioDie

/-- An accumulate leaves its source, in the class ACC; a normal one stands in its source's window (R215, R226, R227). -/
def State.injectAddend (s : State) (a : Addend) : State × Addend :=
  let k := pkAcc a.forced
  let source := NetEnd.quay (clusterOf a.core)
  let e := s.accEnd a.line
  let a' := { a with kept := false, sent := s.packets, mark := s.markBit k source e }
  let s := s.carry k source e
  (if a.forced || s.target a.line != .dram then s else s.windowSend (coreSource a.core) (s.homeSlice a.line), a')

/-- An accumulate sent; one whose line's home moves waits at its source (R217). -/
def State.sendAddend (s : State) (a : Addend) : State :=
  if s.moving a.line then s.send (.acc { a with kept := true })
  else
    let (s, a) := s.injectAddend a
    s.send (.acc a)

/-- The addends of an ACCH sent, with the residual entry that rides (R204); the command is within its granule until the reply
(R162). -/
def State.sendAcch (s : State) (id : Nat) (k : Command) (line addends marks quota : Nat) : State :=
  let c := k.core
  let b := k.berth
  let normal (s : State) (a m : Nat) (e : Option Nat) : State :=
    (s.setCommand id { k with checked := false, sent := true }).sendAddend
      { core := c, berth := b, slot := k.slot, cmd := some id, line := line, addends := a, marks := m, forced := false,
        entry := e, quota := quota, pts := k.pts, decided := false, accepted := false, applied := false, replied := false,
        sent := 0, mark := false, kept := false }
  match s.launch k.slot with
  | none => normal s addends marks none
  | some l =>
    match s.findResidual l c b line (fun x => x == 1) with
    | some i =>
      let r := s.residual l c b i
      let (sum, sat) := addA64 r.value addends
      normal (s.putResidual l c b i { r with state := 2, value := 0, mark := 0 }) sum (r.mark ||| marks ||| sat) (some i)
    | none => normal s addends marks none

/-- The physical lines to which the requests of a run go. -/
def State.runTargets (s : State) (k : Command) (l : List Xfer) : List Nat :=
  match k.work with
  | .acch line .. => [(s.pageOf k line true).pa line / 256]
  | .lines .. => l.filterMap fun x => x.src.map fun p => (s.pageOf k (p.bit / 8) false).pa (p.bit / 8) / 256
  | _ => (s.runLines k l).map LineUse.line

/-- A run asks for lines whose home slice has a REQ packet of the core on its way to it (R215, R223). -/
def State.mustQueue (s : State) (k : Command) (l : List Xfer) : Bool :=
  let asked := match k.work with
    | .acch .. => []
    | .lines .. => s.runTargets k l
    | _ => ((s.runLines k l).filter fun (u : LineUse) => !u.write).map LineUse.line
  k.path != pSteve && asked.any fun n => s.target (256 * n) == .dram && s.requestAhead k.core (s.homeSlice (256 * n))

/-- ENGINE_DATA_LAND of a command sends its requests. -/
def State.landSends (s : State) (k : Command) : Bool :=
  let l := s.run k
  let lines := s.runTargets k l
  k.checked && !s.mustQueue k l && !(lines.any fun n => s.moving (256 * n)) && (s.closedSlice k.source lines).isNone

/-- The first request of the run of a command: its packet, and the slice to which it goes, if it goes to one (R215). -/
def State.landPacket (s : State) (k : Command) : PacketKind :=
  match k.work, s.runLines k (s.run k) with
  | .lines .., _ => pkRequest
  | _, u :: _ => if u.write then pkData u.bytes else pkRequest
  | _, [] => pkRequest
def State.landSlice (s : State) (k : Command) : List Nat :=
  (((s.runTargets k (s.run k)).take 1).filter fun n => s.target (256 * n) == .dram).map fun n => s.homeSlice (256 * n)

/-- The request of a command has arrived: a later one may be sent again as often as R234 says. -/
def State.arrived (s : State) (id : Nat) : State := { s with resends := Map.erase s.resends id }

/-- The data of the run that has been checked land, or its requests leave; they wait while a line's home moves (R217), behind
earlier requests (R223), and while their window is full (R227). -/
def State.dataLand (s : State) (id : Nat) : State :=
  match Map.get? s.commands id with
  | none => s
  | some k =>
    let l := s.run k
    let lines := s.runTargets k l
    if !k.checked || s.mustQueue k l || lines.any fun n => s.moving (256 * n) then s
    else
      match s.closedSlice k.source lines with
      | some h => s.windowWait k.source h (.engineDataLand id)
      | none =>
        match k.work with
        | .acch line a m q => s.sendAcch id k ((s.pageOf k line true).pa line) a m q
        | .lines .. =>
          let (t, k) := s.pinLines k l
          ((t.setCommand id ({ k with done := k.done + l.length, checked := false }.leave
            (s.transfers k)[k.done + l.length]?)).arrived id).later (.engineGranuleCheck id)
        | _ =>
          let s := match k.append with
            | some (_, _, a) => s.readOver k.core k.berth a (k.entrySize)
            | none => s
          let (s, k) := s.landRun k l
          ((s.setCommand id k).arrived id).later (.engineGranuleCheck id)
def execEngineDataLand (id : Nat) (s : State) : Host.Outcome State Fault Refusal := .next (s.dataLand id)

/-! ## ENGINE_COMMAND_COMPLETE (R189, R208) -/

/-- FLUSHR is performed: no addend of the berth is under way, and its residual table is empty (R208). -/
def State.flushed (s : State) (k : Command) : Bool :=
  (s.messages.all fun e => !(e.2.accOf k.core k.berth)) &&
    (s.commands.all fun e => !(e.2.core == k.core && e.2.berth == k.berth && e.2.op == 0xB && !e.2.held)) &&
    (match s.launch k.slot with
      | some l => s.resOcc l k.core k.berth == 0
      | none => true)

/-- Whether every access of a command is performed. -/
def State.allPerformed (s : State) (k : Command) : Bool :=
  !k.held && !k.suspended && !k.checked && k.unread.isEmpty &&
    (match k.work with
      | .flushr => s.flushed k
      | .xst _ _ n .. => decide ((dataPackets n).length ≤ k.done)
      | .coll _ => decide (1 ≤ k.done)
      | _ => decide ((s.transfers k).length ≤ k.done))

def State.commandComplete (s : State) (id : Nat) : State :=
  match Map.get? s.commands id with
  | none => s
  | some k => if s.allPerformed k then s.finish id k else s
def execEngineCommandComplete (id : Nat) (s : State) : Host.Outcome State Fault Refusal := .next (s.commandComplete id)

/-! ## STEVEDORE_PUSH (R430) -/

/-- The launch of a berth's task is being terminated (R280). -/
def State.ending (s : State) (c b : Nat) : Bool := ((s.launch (s.berth c b).slot).map Launch.terminated).getD false

/-- The push of a subscription's tile k into the entry that a tail counter names (R430). -/
def State.pushCommand (s : State) (c b n : Nat) (t : Sub) (k : Nat) (tail : BitVec 16) : Command :=
  let x := s.berth c b
  let a := (x.regs.queue t.queue).slotAddr tail
  { core := c, berth := b, slot := x.slot, task := (x.task.map Task.uid).getD 0, op := 0xE, path := pSteve,
    work := .load { desc := t.desc, origin := t.origin k, rows := none, entry := a, esize := t.esize, padu := t.padu },
    sync := t.sync, rel := none, append := some (t.queue, tail, a), needCrit := Desc.crit t.desc, needMs := Desc.ms t.desc,
    held := false, push := some n, done := 0, checked := false, gens := [], suspended := false, marked := false, tainted := [],
    pts := s.ptsOf c b pSteve, maxTs := 0, flags := 0, sent := false, dropped := [], lost := false, begun := [], frames := [],
    order := s.stamp, unread := [] }

/-- A subscription of the other member of a pair, with its number, and the push of tile k under it (R249). -/
def State.twinPush (s : State) (d e n : Nat) (u : Sub) (k : Nat) : Command :=
  s.pushCommand d e n u k (((s.berth d e).regs.queue u.queue).tail - .ofNat 16 (u.begun - k))

/-- The same subscription of the other member of a pair, if it is still there. -/
def Berth.sameSub (x : Berth) (t : Sub) : Option Sub :=
  (x.subs.map Prod.snd).find? fun u => u.queue == t.queue && u.z0 == t.z0 && u.z1 == t.z1

/-- The odd member of a pair receives a tile that the even member's push, with which its own is compared, has made (R249, R431). -/
def State.oddPush (s : State) (c b n : Nat) (t : Sub) (tail : BitVec 16) : State :=
  let (d, e) := s.reader c b
  match (s.berth d e).sameSub t with
  | some u =>
    if u.landed ≤ t.begun then s
    else
      let differs := !((s.pushCommand c b n t t.begun tail).agrees (s.twinPush d e n u t.begun))
      tileTaken (s.onBerth c b fun y => { y with diverged := y.diverged || differs })
  | none => if (s.berth d e).issued < (s.berth c b).issued then s else tileTaken s
where
  /-- The tile stands in the shared slot, and the member's tail passes it. -/
  tileTaken (s : State) : State :=
    ((s.onBerth c b fun y =>
        { y with regs := y.regs.putQ t.queue { y.regs.queue t.queue with tail := tail + 1 } }).onSub c b n fun t =>
          { t with begun := t.begun + 1 }).tileLanded c b n

/-- The slot that a push reserves is absent from then on, in a bank that is still the launch's (R50, R95). -/
def State.clearSlot (s : State) (k : Command) (addr n : Nat) : State × Command :=
  let cl := clusterOf k.core
  if (s.cluster cl).engineMay k.slot addr n then
    let blk : Block := { (s.cluster cl).block addr with present := false }
    (s.setCluster cl ((s.cluster cl).setBlock addr blk), k)
  else s.recordLoss k 0

/-- The next tile of a subscription is pushed once the one before has landed and while the queue has room (R430, log 24); none of a
launch that is being terminated (R280). -/
def State.push (s : State) (c b n : Nat) : State :=
  let x := s.berth c b
  match x.sub? n with
  | none => s
  | some t =>
    let q := x.regs.queue t.queue
    if t.stopped ∨ s.ending c b ∨ t.count ≤ t.begun ∨ t.landed < t.begun ∨
        q.cap ≤ (q.tail - s.freedHead c b t.queue).toNat then s
    else if x.red && c % 2 == 1 then s.oddPush c b n t q.tail
    else
      let k := s.pushCommand c b n t t.begun q.tail
      let s := (s.onBerth c b fun y =>
        { y with regs := y.regs.putQ t.queue { q with tail := q.tail + 1 } }).onSub c b n fun t => { t with begun := t.begun + 1 }
      let (s, k) := s.clearSlot k (q.slotAddr q.tail) t.esize
      ({ s.bump with commands := Map.set s.commands s.stamp k }).later (.engineGranuleCheck s.stamp)
def execStevedorePush (core berth sub : Nat) (s : State) : Host.Outcome State Fault Refusal := .next (s.push core berth sub)

/-! ## RESULT_WRITEBACK (R92, R94, R145, R249) -/

/-- A result of a redundant pair is held back until the other member has issued the bundle, the odd member's until the even member's
has landed (R249); not a row of the member's own accumulators, whose order with its M-slot operations is that of issue (R297). -/
def State.pairHolds (s : State) (w : Writeback) : Bool :=
  let x := s.berth w.core w.berth
  match x.task.bind Task.partner with
  | some (c, b) =>
    x.red && w.accRow.isNone && (decide ((s.berth c b).issued < x.issued) ||
      (w.core % 2 == 1 && s.writebacks.any fun e =>
        e.2.core == c && e.2.berth == b && e.2.queue == w.queue && e.2.counter == w.counter && e.2.esize != 0))
  | none => false

/-- A result is held back from a slot that is not freed, unless the berth's next bundle waits for this entry (R94, R241, log 25). -/
def State.heldBack (s : State) (w : Writeback) : Bool :=
  let x := s.berth w.core w.berth
  let q := x.regs.queue w.queue
  (w.esize != 0 && decide (q.cap ≤ (w.counter - s.freedHead w.core w.berth w.queue).toNat) && x.awaits != some w.addr) ||
    s.pairHolds w

/-- The entry, or part of one, of a result in scratchpad, with its sideband and presence bit; a block that is written whole loses its
mark (R163, R427). -/
def State.writeEntry (s : State) (w : Writeback) : State :=
  let cl := clusterOf w.core
  let s := s.onSpad cl fun m => m.write (w.addr + w.first) w.count w.bytes
  let k := if (w.addr + w.first) % 128 = 0 ∧ w.count % 128 = 0 then
      (s.cluster cl).onBlocks (w.addr + w.first) (w.count / 128) fun b => { b with mark := false }
    else s.cluster cl
  let b := k.block w.addr
  let s := s.setCluster cl (k.setBlock w.addr
    { b with sideband := mergeSideband b.sideband w.sideband (w.first / w.count), unit := w.unit
             present := b.present || w.setsPresence })
  (s.touchSpad w.core w.berth pQwrite true (w.addr + w.first) w.count).captureAll cl

/-- A result written, and its flags merged. The odd member of a pair compares with what the even member wrote, the sideband
included (R249). -/
def State.writeResult (s : State) (id : Nat) (w : Writeback) : State :=
  let s : State := { s with writebacks := Map.erase s.writebacks id }
  let s := s.mergeFlags w.core w.berth w.flags
  let s := match w.accRow with
    | some (t, r) => (s.setCore w.core ((s.core w.core).putAccRow t r 0 (unpackElems 32 32 w.bytes))).endHold w.core
    | none => s
  if w.esize = 0 then s
  else if (s.berth w.core w.berth).red && w.core % 2 == 1 then
    let cl := s.cluster (clusterOf w.core)
    let side := (cl.block w.addr).sideband
    let wrong : Bool := cl.spad.read (w.addr + w.first) w.count != w.bytes % 2 ^ (8 * w.count) ||
      mergeSideband side w.sideband (w.first / w.count) != side
    s.onBerth w.core w.berth fun x => { x with diverged := x.diverged || wrong }
  else s.writeEntry w

/-- RESULT_WRITEBACK. -/
def State.resultWriteback (s : State) (id : Nat) : State :=
  match Map.get? s.writebacks id with
  | none => s
  | some w => if s.heldBack w then s else (s.readOver w.core w.berth w.addr w.esize).writeResult id w
def execResultWriteback (id : Nat) (s : State) : Host.Outcome State Fault Refusal := .next (s.resultWriteback id)

end Sys2Proof.Machine
end

