-- ==== Sys2Proof/Machine/Tasks.lean ====
section
/-! DEFINITION. Tasks: packets (R66, R67, R71), candidates and placement (R37, R38, R59, R63 to R65, R69, R70, R76), context
records (R53 to R55), eviction (R51, R52, R74, R77, R101), retirement and its successors (R39, R72, R73, R75). -/

namespace Sys2Proof.Machine

/-! ## Virtual memory as the device reads it -/

/-- The translations of the 64 KiB regions of a range, by VA / 2^16 (R157). -/
def State.regionWalks (s : State) (va n : Nat) : Map Walk := (unitsOf 65536 va n).map fun i => (i, s.translate (65536 * i))

/-- The physical address of a byte of a range. -/
def regionPa (ws : Map Walk) (a : Nat) : Nat := (Map.getD ws (a / 65536) (.none tPageFault)).pa a

/-- n bytes at a virtual address, each 64 KiB region translated once. -/
def State.readV (s : State) (va n : Nat) : Nat :=
  let ws := s.regionWalks va n
  readBits (fun a => s.mem.byte (regionPa ws a)) (8 * va) (8 * n)

/-- n bytes written at a virtual address. -/
def State.writeV (s : State) (va n v : Nat) : State :=
  let ws := s.regionWalks va n
  (List.range n).foldl (fun (t : State) i => t.putMem (regionPa ws (va + i)) 1 (bits v (8 * i) 8)) s

/-- Every 64 KiB region of a range translates without fault. -/
def State.translates (s : State) (va n : Nat) : Bool :=
  s.ctrl.xroot != 0 && (s.regionWalks va n).all fun w => w.2.fault == 0

/-- The channels of leaves of a range that do not read alike charged, as the device translates the range (R157). -/
def State.chargeRange (s : State) (va n : Nat) : State :=
  (s.regionWalks va n).foldl (fun (t : State) w => t.chargeWalk w.2) s

/-- The physical ranges behind a virtual one, a page that faults left out, in turn: as the requests of an agent go to them (R18). -/
def State.rangeTrips (s : State) (va n : Nat) (f : State → Nat → Nat → State) : State :=
  (unitsOf 65536 va n).foldl (fun (t : State) i =>
    let w := s.translate (65536 * i)
    let first := max va (65536 * i)
    if w.fault ≠ 0 then t else f t (w.pa first) (min (va + n) (65536 * (i + 1)) - first)) s

/-- The accesses of a core to a context record carried (R18, R53). -/
def State.recordTrips (s : State) (c : Nat) (write : Bool) (va n : Nat) : State :=
  s.rangeTrips va n fun t pa k => t.agentTrips (fun _ => coreSource c) (.quay (clusterOf c)) write pa k

/-- A page of a range is being migrated: a reader or writer of it waits (R167). -/
def State.migratingIn (s : State) (va n : Nat) : Bool :=
  (unitsOf 65536 va n).any fun i => let w := s.walk (65536 * i); w.hasLeaf && w.mig

/-! ## Packets (R66, R67) -/

/-- The fields of a header word. -/
def hType (w : Word) : Nat := bits w.toNat 3 3
def hPrio (w : Word) : Nat := bits w.toNat 6 2
def hEntry (w : Word) : Nat := bits w.toNat 8 11
def hSuccs (w : Word) : Nat := bits w.toNat 19 3
def hNoAge (w : Word) : Bool := w.getLsbD 24
def hFailSucc (w : Word) : Bool := w.getLsbD 25

/-- The header of a packet. -/
def Packet.header (p : Packet) : Word := p.words.head?.getD 0

/-- A packet that the dispatcher removes: of a reserved TYPE, or a malformed TASK packet (R67, R71). -/
def Packet.malformed (p : Packet) : Bool :=
  let w := p.header
  decide (3 ≤ hType w) ||
    (hType w == 0 && (decide (4 * p.units < 1 + hSuccs w) || bits w.toNat 36 28 != 0 || bits w.toNat 26 6 != 0 ||
      bits w.toNat 22 2 != 0))

/-- A TASK packet that can be offered. -/
def Packet.isTask (p : Packet) : Bool := p.reserved.isNone && hType p.header == 0 && !p.malformed

/-- The task of a TASK packet at the head of a queue (R68, R69). -/
def packetTask (slot uid cl tq : Nat) (l : Launch) (p : Packet) : Task :=
  let w := p.header
  let prio := min (hPrio w) l.prio
  { slot := slot, uid := uid, source := .packet cl tq, ages := !(hNoAge w), entry := hEntry w, basePrio := prio,
    effPrio := prio, args := (p.words.drop 1).take (4 * p.units - 1 - hSuccs w), origins := [],
    succs := p.words.drop (4 * p.units - hSuccs w), failSucc := hFailSucc w, ctxSlot := 0, tables := [], partner := none }

/-! ## Context records (R53 to R55) -/

/-- One byte more of a CRC-32 (IEEE 802.3, reflected). -/
def crcByte (c : BitVec 32) (b : Nat) : BitVec 32 :=
  (List.range 8).foldl (fun (c : BitVec 32) _ => if c.getLsbD 0 then (c >>> 1) ^^^ 0xEDB88320 else c >>> 1)
    (c ^^^ BitVec.ofNat 32 b)

/-- The CRC-32 of n bytes of a little-endian number. -/
def crc32 (n x : Nat) : Nat :=
  (~~~ ((List.range n).foldl (fun (c : BitVec 32) i => crcByte c (bits x (8 * i) 8)) (BitVec.allOnes 32))).toNat

/-- A Bool as a bit. -/
def one (b : Bool) : Nat := if b then 1 else 0

/-- A handle in 128 bits. -/
def Handle.image (h : Handle) : Nat :=
  h.vpn.toNat + 2 ^ 40 * h.frame.toNat + 2 ^ 76 * h.gen.toNat + 2 ^ 88 * h.poison.toNat + 2 ^ 104 * h.fault.toNat +
    2 ^ 112 * packElems 1 ([h.psz, h.rd, h.w, h.atm, h.crit, h.ms, h.ready, h.valid, h.loaded, h.leaf].map one)

def handleOf (x : Nat) : Handle :=
  { vpn := .ofNat 40 (bits x 0 40), frame := .ofNat 36 (bits x 40 36), gen := .ofNat 12 (bits x 76 12),
    poison := .ofNat 16 (bits x 88 16), fault := .ofNat 8 (bits x 104 8), psz := bit x 112, rd := bit x 113,
    w := bit x 114, atm := bit x 115, crit := bit x 116, ms := bit x 117, ready := bit x 118, valid := bit x 119,
    loaded := bit x 120, leaf := bit x 121 }

/-- A LOCAL or OPEN queue in 256 bits; a berth with another queue is not evicted (R101). -/
def Queue.image (q : Queue) : Nat :=
  q.cfg.toNat + 2 ^ 64 * q.head.toNat + 2 ^ 80 * q.tail.toNat + 2 ^ 96 * q.pendingAt.toNat + 2 ^ 112 * (q.rowCount % 2 ^ 16) +
    2 ^ 128 * packElems 1 ([q.configured, q.splice == .openQ, q.packPending].map one)

def queueOf (x : Nat) : Queue :=
  { Queue.zero with
    cfg := .ofNat 64 (bits x 0 64), head := .ofNat 16 (bits x 64 16), tail := .ofNat 16 (bits x 80 16),
    pendingAt := .ofNat 16 (bits x 96 16), rowCount := bits x 112 16, configured := bit x 128,
    splice := if bit x 129 then .openQ else .localQ, packPending := bit x 130 }

def LoopEntry.image (e : LoopEntry) : Nat :=
  e.start.toNat + 2 ^ 16 * e.stop.toNat + 2 ^ 32 * e.remaining.toNat + 2 ^ 64 * e.index.toNat

def loopOf (x : Nat) : LoopEntry :=
  { start := .ofNat 11 (bits x 0 11), stop := .ofNat 11 (bits x 16 11), remaining := .ofNat 32 (bits x 32 32),
    index := .ofNat 32 (bits x 64 32) }

/-- The first 1,020 bytes of a context record: the areas of R54. DESIGN CHOICE (log 42). -/
def Regs.image (r : Regs) : Nat :=
  let sr := packElems 64 [r.mode.toNat, r.count.toNat * 2 ^ 32 + r.bound.toNat, r.chksb.toNat, r.cause.toNat, r.epc.toNat,
    r.einfo.toNat, r.rewinds.toNat * 2 ^ 16 + one r.retry * 2 ^ 12 + r.entry.toNat,
    r.refused.toNat * 2 ^ 16 + r.quota.toNat]
  r.pc.toNat + 2 ^ 16 * r.loops.length + 2 ^ 24 * packElems 1 (r.k.toList.map one) + 2 ^ 32 * r.flags.toNat +
    2 ^ (8 * 0x10) * packElems 128 (r.loops.map LoopEntry.image) +
    2 ^ (8 * 0x80) * packElems 64 (r.g.toList.map BitVec.toNat) +
    2 ^ (8 * 0x180) * packElems 128 (r.h.toList.map Handle.image) +
    2 ^ (8 * 0x280) * packElems 256 (r.q.toList.map Queue.image) + 2 ^ (8 * 0x300) * sr

/-- The registers that a context record holds. -/
def regsOf (x : Nat) : Regs :=
  let sr (i : Nat) : Nat := bits x (8 * 0x300 + 64 * i) 64
  { pc := .ofNat 11 (bits x 0 11)
    loops := (List.range (min 6 (bits x 16 8))).map fun i => loopOf (bits x (8 * 0x10 + 128 * i) 128)
    g := Vector.ofFn fun i => .ofNat 64 (bits x (8 * 0x80 + 64 * i.val) 64)
    h := Vector.ofFn fun i => handleOf (bits x (8 * 0x180 + 128 * i.val) 128)
    k := Vector.ofFn fun i => bit x (24 + i.val)
    q := Vector.ofFn fun i => queueOf (bits x (8 * 0x280 + 256 * i.val) 256)
    mode := .ofNat 64 (sr 0), bound := .ofNat 32 (bits (sr 1) 0 32), count := .ofNat 32 (bits (sr 1) 32 32)
    chksb := .ofNat 64 (sr 2), flags := .ofNat 7 (bits x 32 7), cause := .ofNat 64 (sr 3), epc := .ofNat 64 (sr 4)
    einfo := .ofNat 64 (sr 5), rewinds := .ofNat 8 (bits (sr 6) 16 8), retry := bit (sr 6) 12
    entry := .ofNat 11 (bits (sr 6) 0 11), quota := .ofNat 16 (bits (sr 7) 0 16)
    refused := .ofNat 16 (bits (sr 7) 16 16) }

/-- The virtual address of a context slot (R45). -/
def Launch.ctxAddr (l : Launch) (c n : Nat) : Nat := l.ctxarea + 16384 * (c - l.c0) + 1024 * n

/-- The lowest free context slot of a core (R53). -/
def Launch.freeCtx (l : Launch) (c : Nat) : Option Nat := (List.range 16).find? fun n => !(l.ctxUsed.contains (c, n))

/-- A launch replaced. -/
def State.setLaunch (s : State) (n : Nat) (l : Launch) : State := { s with launches := Map.set s.launches n l }

/-- A launch changed, if the slot holds one. -/
def State.onLaunch (s : State) (n : Nat) (f : Launch → Launch) : State :=
  match s.launch n with
  | some l => s.setLaunch n (f l)
  | none => s

/-- The record of a berth written to its context slot, with its CRC. -/
def State.saveContext (s : State) (l : Launch) (c b n : Nat) : State :=
  let x := (s.berth c b).regs.image
  ((s.chargeRange (l.ctxAddr c n) 1024).recordTrips c true (l.ctxAddr c n) 1024).writeV (l.ctxAddr c n) 1024
    (x % 2 ^ 8160 + crc32 1020 x * 2 ^ 8160)

/-- The handles of resumed registers (R55): VALID is cleared where the page has been revoked, whatever fault the handle records
(R161), and the poison bits of the granules join (R163). DEDUCED (log 28). -/
def State.recheck (s : State) (r : Regs) : Regs :=
  { r with h := r.h.map fun (h : Handle) =>
      if h.loaded then
        { h with
          valid := h.valid && !s.revoked h
          poison := if h.fault = 0 then h.poison ||| s.regionPoison h.frame.toNat else h.poison }
      else h }

/-! ## Where a task may be placed (R42, R62, R65) -/

/-- The FREE berths of a core that a launch may use. -/
def State.openBerths (s : State) (l : Launch) (c : Nat) : List Nat :=
  (List.range 8).filter fun b => (s.berth c b).status == .free && l.mayUse b

/-- The ranges that a launch loads on a core are loaded (R47). -/
def Launch.loaded (l : Launch) (c : Nat) : Bool := l.toLoad.all fun x => x.2 != c

/-- A core takes new tasks of a launch (R62, R79). -/
def State.takes (s : State) (l : Launch) (c : Nat) : Bool :=
  (s.core c).service == .inService && l.loaded c && !l.preempted && !l.terminated

/-- The berth on which a core would place a task of a launch; of a redundant launch the berths of both members (R65), on
which every task of the launch is placed, whatever the kind of its target level. DESIGN CHOICE (log 80). -/
def State.seat (s : State) (l : Launch) (c : Nat) : Option (Nat × Nat) :=
  if l.redundant then
    let x := s.openBerths l c
    let y := s.openBerths l (pairCore c)
    if !s.takes l c || !s.takes l (pairCore c) then none
    else
      match x.find? fun b => y.contains b with
      | some b => some (b, b)
      | none =>
        match x, y with
        | b :: _, d :: _ => some (b, d)
        | _, _ => none
  else if s.takes l c then (s.openBerths l c).head?.map fun b => (b, b) else none

/-! ## The state of a task that starts (R37, R38, R69) -/

/-- The general registers of a task that starts. -/
def Task.gRegs (t : Task) : Vector Word 32 :=
  Vector.ofFn fun i =>
    if 24 ≤ i.val ∧ t.origins ≠ [] then t.origins.getD (i.val - 24) 0
    else if i.val = 0 then 0 else t.args.getD (i.val - 1) 0

/-- The registers of a task that starts. -/
def startRegs (l : Launch) (t : Task) : Regs :=
  { Regs.reset with
    pc := .ofNat 11 t.entry, g := t.gRegs, mode := if l.checked then 0x101 else 0, bound := l.pbound,
    chksb := if l.checked then 1 else 0, quota := if l.accq = 0 then 8 else l.accq }

/-- A berth that takes a task with registers. Its bypass registers and select latch read zero, for a bundle too that is issued again
after an eviction before it, and SR.RINGCFG, SR.NETSEL and SR.LEASE, which R30 does not save, read zero. DESIGN CHOICE (log 82),
DESIGN CHOICE (log 84). -/
def State.seatBerth (s : State) (l : Launch) (c : Nat) (t : Task) (r : Regs) : Berth :=
  { Berth.reset with
    status := .ready, regs := r, chkl := l.checked, ltol := l.leasetol, red := l.redundant, task := some t,
    entryNext := true, pts := (s.core c).floors }

/-- A fresh task placed on a berth. -/
def State.startTask (s : State) (l : Launch) (c b : Nat) (t : Task) : State :=
  s.setBerth c b (s.seatBerth l c { t with effPrio := t.basePrio } (startRegs l t))

/-! ## Retirement (R39, R72, R73, R75) -/

/-- A packet enqueued by the device for a launch under the rules of ENQ (R68, R73, R83); none where the quota would be
breached. -/
def State.enqueue (s : State) (cl tq launch : Nat) (pkt : List Word) : Option State :=
  (s.reservePlace cl tq (pkt.length / 4) launch).map fun s' => s'.fillPlace s.stamp pkt

/-- An event of a completion engine. -/
def State.postBy (s : State) (x : Notifier) (code arg0 arg1 : Nat) : State :=
  s.post { code := code, lslot := x.slot, berth := x.berth, core := x.core, arg0 := arg0, arg1 := arg1, command := none }

/-- The update of a successor record and its reply carried, in the class REQ (R215, R220). -/
def State.recordTrip (s : State) (core pa : Nat) (ms : Bool) : State :=
  match s.target pa with
  | .dram =>
    let s := s.roundTrip (coreSource core) (s.homeSlice pa) pkRequest pkAnswer
    if ms then s.dramTrip (pa / 256) pkRequest pkAnswer else s
  | _ => s.ioTrip (coreSource core) pkRequest pkAnswer

/-- The clocks of a cluster's cores raised to a time, so that tasks placed on them order after what it covers (R73, R194). -/
def State.raiseFloors (s : State) (cl t : Nat) : State :=
  (List.range 16).foldl (fun (s : State) i =>
    s.setCore (16 * cl + i) { s.core (16 * cl + i) with floors := (s.core (16 * cl + i)).floors.map (max t) }) s

/-- A write of a successor record from a clock, on the CORE path, and its timestamp (R73, R188, R192). -/
def State.putRecord (s : State) (va n v pts : Nat) : State × Nat :=
  let w := s.translate va
  let (s, ts) := s.stampMem true w.ms pts (w.pa va) n
  (s.writeV va n v, ts)

/-- The packet image of a successor record, and the timestamp of its read. -/
def State.takeImage (s : State) (va pts : Nat) : State × List Word × Nat :=
  let units := s.readV va 1 % 8 + 1
  let w := s.translate va
  let (s, ts) := s.stampMem false w.ms pts (w.pa va) (32 * units)
  (s, wordsOf (4 * units) (s.readV va (32 * units)), ts)

/-- The last predecessor of a successor record is done: its image is enqueued, or the record marked ENQFAIL (R73). -/
def State.enqueueImage (s : State) (x : Notifier) (l : Launch) (t pts : Nat) : State × Nat :=
  let cl := s.readV (t + 6) 2
  let tq := s.readV (t + 5) 1 % 16
  let failed (s : State) (arg : Nat) : State × Nat :=
    let (s, ts) := s.putRecord (t + 4) 1 2 pts
    (s.postBy x 0x0007 t arg, ts)
  if !s.translates (t + 0x40) (32 * (s.readV (t + 0x40) 1 % 8 + 1)) then failed s 1
  else if !s.clusterInDomain l cl then failed s 2
  else
    let (s, image, pts) := (s.chargeRange (t + 0x40) 256).takeImage (t + 0x40) pts
    match s.enqueue cl tq x.slot image with
    | some s => (s.raiseFloors cl pts).putRecord (t + 4) 1 1 pts
    | none =>
      let (s, ts) := s.putRecord (t + 4) 1 2 pts
      ((s.onLaunch x.slot fun (l : Launch) => { l with faulted := true }).postBy x 0x0009 t tSpillQuota, ts)

/-- One successor of a retiring task notified (R73): the state, and the completion engine's clock. The record's home slice orders the
decrement, and a successor enqueued comes after every access that the decrements follow. -/
def State.decrement (s : State) (x : Notifier) (l : Launch) (handle : Word) : State × Nat :=
  let t := bits handle.toNat 0 56
  let w := s.translate t
  let s := s.chargeWalk w
  if w.fault ≠ 0 then (s.postBy x 0x0007 t 0, x.pts)
  else if s.unreachable (w.pa t) then (s.postQuay (clusterOf x.core) 0x0014 x.slot (w.pa t) PacketClass.req.code, x.pts)
  else
    let s := s.recordTrip x.core (w.pa t) w.ms
    let old := s.readV t 4
    let (s, ts) := s.putRecord t 4 (old - 1) x.pts
    if old = 0 then
      let (s, ts) := s.putRecord (t + 4) 1 3 ts
      (s.postBy x 0x0008 t 0, ts)
    else if old ≠ 1 then (s, ts)
    else s.enqueueImage x l t ts

/-- A successor notified; the CORE clock of the notifying berth, or its core's floor for a task that no berth holds, follows (R192,
R194). -/
def State.notifySucc (s : State) (x : Notifier) (l : Launch) (handle : Word) : State :=
  let now := if x.berth < 8 then s.ptsOf x.core x.berth pCore else vget (s.core x.core).floors pCore 0
  let (s, ts) := s.decrement { x with pts := max x.pts now } l handle
  s.raisePts x.core x.berth pCore ts

/-- The successors of a retiring task that are still to be notified, in handle order: none where it failed without FAILSUCC, or its
launch is being terminated (R73, R280). -/
def State.toTell (s : State) (t : Task) (failed : Bool) : List Word :=
  match s.launch t.slot with
  | none => []
  | some l => if (failed && !t.failSucc) || l.terminated then [] else t.succs

/-- The clock after a fence over every path of a berth (R73, R196). -/
def State.fenced (s : State) (c b : Nat) : State × Nat :=
  let s := s.joinClocks c b 0xFF
  (s, s.ptsOf c b 0)

/-- A successor of a resident task notified, after the task's fence (R73). -/
def State.notifyNext (s : State) (c b : Nat) (t : Task) (handle : Word) : State :=
  let (s, pts) := s.fenced c b
  match s.launch t.slot with
  | some l => s.notifySucc { core := c, slot := t.slot, berth := b, pts := pts } l handle
  | none => s

/-- An event of the completion engine of a core's cluster waits to be accepted, which stalls the engine (R274). -/
def State.engineWaits (s : State) (c : Nat) : Bool := s.raised.any fun e => e.code == 9 && e.core / 16 == c / 16

/-- A completion engine may update a successor record: no page of the record or its image is being migrated (R167), its line's home
does not move (R217), the engine's window is open (R227), no earlier request of the core is on its way there (R223), and no event
of the engine waits to be accepted (R274). -/
def State.recordReady (s : State) (c : Nat) (handle : Word) : Bool :=
  let t := bits handle.toNat 0 56
  let w := s.translate t
  let pa := w.pa t
  !s.migratingIn t 320 && !s.engineWaits c &&
    (w.fault != 0 || s.target pa != .dram ||
      (!s.moving pa && s.windowOpen (coreSource c) (s.homeSlice pa) && !s.requestAhead c (s.homeSlice pa)))

/-- The successors of lost tasks that can be notified now notified; each completion engine goes on in order (R73, R82, R274). -/
def State.drainNotify (s : State) : State :=
  s.toNotify.foldl (fun (t : State) e =>
    if (t.toNotify.any fun y => y.1.core / 16 == e.1.core / 16) || !t.recordReady e.1.core e.2 then
      { t with toNotify := t.toNotify ++ [e] }
    else
      match t.launch e.1.slot with
      | some l => t.notifySucc e.1 l e.2
      | none => t) { s with toNotify := [] }

/-- The successors of a task lost with its core are to be notified: its accesses are performed, and the core's floors cover them (R82,
R194). -/
def State.notifyLost (s : State) (c : Nat) (t : Task) : State :=
  let x : Notifier := { core := c, slot := t.slot, berth := 0x80, pts := (s.core c).floors.foldl max 0 }
  match s.launch t.slot with
  | none => s
  | some l =>
    if !t.failSucc || l.terminated then s
    else { s with toNotify := s.toNotify ++ t.succs.map fun h => (x, h) }.drainNotify

/-- A task counted as retired. -/
def State.countTask (s : State) (slot : Nat) (failed : Bool) : State :=
  (s.onLaunch slot fun (l : Launch) => { l with failures := l.failures + one failed }).later (.launchComplete slot)

/-- A message concerns an operation that a berth has under way. -/
def Msg.ofBerth (m : Msg) (c b : Nat) : Bool :=
  match m with
  | .enq k x .. => k == c && x == b
  | .qspl k x .. => k == c && x == b
  | .qsplReply k x .. => k == c && x == b
  | .unsplice _ _ _ k x _ => k == c && x == b
  | .bar k x .. => k == c && x == b
  | .acc a => a.core == c && a.berth == b
  | _ => false

/-- The results of the scalar, V, M and U operations of a berth are written (R53, R164). -/
def State.resultsDone (s : State) (c b : Nat) : Bool :=
  (s.berth c b).outstanding.isEmpty && (s.writebacks.all fun e => !(e.2.core == c && e.2.berth == b)) &&
    ((s.core c).half0 ++ (s.core c).half1).all fun m => m.berth != b

/-- A berth holds a task of a launch. -/
def State.holdsTask (s : State) (slot c b : Nat) : Bool := (s.berth c b).task.isSome && (s.berth c b).slot == slot

/-- What a task left in the residual tables of berths that it was evicted from is delivered: a table that another task of the launch
uses now is that task's to await (R39, R61). -/
def State.tablesDone (s : State) (c b : Nat) : Bool :=
  match (s.berth c b).task, s.launch (s.berth c b).slot with
  | some t, some l =>
    t.tables.all fun d => d == b || s.holdsTask t.slot c d ||
      (!s.holdsResidual l c d && s.messages.all fun e => !(e.2.accOf c d))
  | _, _ => true

/-- Every operation that a berth issued is complete, its queues unspliced and its residual table empty (R39, R100, R431). -/
def State.allDone (s : State) (c b : Nat) : Bool :=
  let x := s.berth c b
  s.resultsDone c b && x.ckpt.isNone && x.held.isEmpty && x.deferred.isNone && x.awaiting.isNone && x.revoking.isNone &&
    s.tablesDone c b && (s.commands.all fun e => !(s.owns c b e.2)) &&
    (s.accesses.all fun e => !(e.2.core == c && e.2.berth == b)) && (s.messages.all fun e => !(e.2.ofBerth c b)) &&
    (s.walks.all fun w => !(w.core == c && w.berth == b)) &&
    (x.regs.q.toList.all fun q => q.splice == .localQ || q.splice == .openQ) &&
    (x.subs.all fun e => e.2.stopped || decide ((if s.ending c b then e.2.begun else e.2.count) ≤ e.2.landed)) &&
    (match s.launch x.slot with
      | some l => s.resOcc l c b == 0
      | none => true)

/-- The registers of a berth as its task leaves them, its queues LOCAL. -/
def Regs.atRest (r : Regs) : Regs :=
  { r with q := r.q.map fun (q : Queue) => { q with splice := .localQ, subscribed := false } }

/-- A core has come to have a FREE berth, or to be in service: the walkers offer before the core places (R64, R76). -/
def State.coreOpens (s : State) (c : Nat) : State :=
  State.later { s with agenda := (s.launches.map fun e => Instr.walkerOffer e.1) ++ s.agenda } (.taskPlace c)

/-- A berth freed: the matrix engine is released, and the core may place a task (R32, R76). Its registers keep their values until a
task is placed. DEDUCED (log 93). -/
def State.freeBerth (s : State) (c b : Nat) : State :=
  let k := s.core c
  let k := if k.hold = some b then { k with hold := none, holdEnding := false, lastHalf := none } else k
  let k := if k.victim = some b then { k with victim := none } else k
  ((s.setCore c k).setBerth c b { Berth.reset with regs := (s.berth c b).regs.atRest }).coreOpens c

/-- A core whose berths are all FREE can start its tests (R79, R256). -/
def State.coreIdle (s : State) (c : Nat) : State :=
  if (s.core c).service = .leasePending ∧ (List.range 8).all (fun b => (s.berth c b).status == .free) then
    s.later (.dockTestingStart 0 c)
  else s

/-- The berths of a task retired, the first of them that of its completion engine: one successor after the other is notified, each
before the next row of the retirement, and then the berths are FREE (R39, R73, R274). -/
def State.retireTask (s : State) (l : List (Nat × Nat)) (t : Task) (failed : Bool) : State :=
  match l.head?, s.toTell t failed with
  | some (c, b), h :: rest =>
    if !s.recordReady c h then s
    else
      (l.foldl (fun (s : State) m => s.onBerth m.1 m.2 fun x =>
        { x with task := x.task.map fun u => { u with succs := rest } }) (s.notifyNext c b t h)).later (.taskRetire c b)
  | some (c, _), [] =>
    if s.engineWaits c then s
    else
      let s := (l.foldl (fun (s : State) m => s.freeBerth m.1 m.2) s).countTask t.slot failed
      l.foldl (fun (s : State) m => s.coreIdle m.1) s
  | none, _ => s

/-- TASK_RETIRE (R39): the task of a DRAINING berth retires once everything it issued is complete. A redundant pair
retires as one task; where one member has failed, both have. -/
def State.taskRetire (s : State) (c b : Nat) : State :=
  let x := s.berth c b
  match x.task with
  | none => s
  | some t =>
    if x.status ≠ .draining ∨ !s.allDone c b ∨ (s.raised.any fun e => e.code == 0xE && e.core == c && e.berth == b) then s
    else
      match t.partner with
      | none => s.retireTask [(c, b)] t x.failed
      | some (d, e) =>
        let y := s.berth d e
        if y.status ≠ .draining then
          if x.failed then (s.giveUp d e).onBerth d e Berth.fail else s
        else if !s.allDone d e then s
        else s.retireTask (if c < d then [(c, b), (d, e)] else [(d, e), (c, b)]) t (x.failed || y.failed)
def execTaskRetire (core berth : Nat) (s : State) : Host.Outcome State Fault Refusal := .next (s.taskRetire core berth)

/-! ## Waiting tasks (R59, R76) -/

/-- A candidate for a berth of a core, with its rank: effective priority, waiting since, kind and number (R76). -/
structure Choice where
  task : Task
  rank : List Nat
  /-- Its place: an entry of the waiting list, or the head of a task queue. -/
  waiting : Option Candidate
  tq : Nat
  deriving DecidableEq, Repr

/-- One rank comes before another. -/
def rankLt : List Nat → List Nat → Bool
  | a :: l, b :: m => decide (a < b) || (a == b && rankLt l m)
  | _, _ => false

/-- The kind and number of a waiting candidate, for ties (R76). -/
def Candidate.tie (x : Candidate) : List Nat :=
  if x.evicted then [0, x.ctxSlot]
  else
    match x.task.source with
    | .startVector i => [2, i]
    | .iteration r n => [3, r, n]
    | .packet _ q => [1, q]

/-- A waiting candidate may be placed now: of an evicted task the forced sends have been applied (R206), and no page of its record
is being migrated (R167). -/
def State.mayStart (s : State) (c : Nat) (x : Candidate) : Bool :=
  let clear (l : Launch) (k : Nat) (y : Candidate) : Bool :=
    (s.messages.all fun e => !(e.2.accOf k y.oldBerth)) && !s.migratingIn (l.ctxAddr k y.ctxSlot) 1024
  match s.launch x.task.slot with
  | none => false
  | some l =>
    (s.seat l c).isSome && (!l.redundant || c % 2 == 0) &&
      (!x.evicted || (clear l c x &&
        (!l.redundant || (s.core (pairCore c)).waiting.any fun y =>
          y.evicted && y.task.uid == x.task.uid && clear l (pairCore c) y)))

/-- The effective priority of a task that has waited for some cycles of its core (R27, R59). -/
def agedPrio (base waited : Nat) : Nat := min 3 (base + waited / 1024)

/-- The candidates of a core that may be placed now (R76). -/
def State.choices (s : State) (c : Nat) : List Choice :=
  let w := ((s.core c).waiting.filter (s.mayStart c)).map fun (x : Candidate) =>
    { task := x.task, rank := (3 - x.task.effPrio) :: x.since :: x.tie, waiting := some x, tq := 0 : Choice }
  let p := (List.range 16).filterMap fun q =>
    match s.tq (clusterOf c) q with
    | [] => none
    | h :: _ =>
      match s.launch (headerSlot h.header) with
      | none => none
      | some l =>
        if h.isTask && (s.seat l c).isSome && s.inDomain l c && (!l.redundant || c % 2 == 0) then
          let t := packetTask (headerSlot h.header) s.stamp (clusterOf c) q l h
          let e := if t.ages then agedPrio t.basePrio (s.cycleOf (clusterOf c * 16) - h.since) else t.basePrio
          some ({ task := t, rank := [3 - e, h.since, 1, q], waiting := none, tq := q } : Choice)
        else none
  w ++ p

/-- The best candidate; of candidates of different launches that are tied after the whole list of R76, the first in the order of
arrival among the core's waiting tasks. DESIGN CHOICE (log 81). -/
def bestChoice : List Choice → Option Choice
  | [] => none
  | x :: l =>
    match bestChoice l with
    | some y => if rankLt y.rank x.rank then some y else some x
    | none => some x

/-- The context record of an evicted task, and whether its CRC matches (R54). -/
def State.recordOf (s : State) (l : Launch) (c : Nat) (x : Candidate) : Nat := s.readV (l.ctxAddr c x.ctxSlot) 1024
def State.recordSound (s : State) (l : Launch) (c : Nat) (x : Candidate) : Bool :=
  crc32 1020 (s.recordOf l c x) == bits (s.recordOf l c x) 8160 32

/-- The context slot of an evicted task freed (R53). -/
def State.freeRecord (s : State) (c : Nat) (x : Candidate) : State :=
  s.onLaunch x.task.slot fun (l : Launch) => { l with ctxUsed := l.ctxUsed.filter fun u => u != (c, x.ctxSlot) }

/-- SR.EINFO of a resumed task: an engine record kept with its slot is written, LOST where an unread one stands there (R271). -/
def Candidate.einfo (x : Candidate) (old : Word) : Word :=
  match x.heldEngine with
  | some w => if x.unread then lostRecord w else w
  | none => old

/-- A task resumed on a berth from its context slot (R53 to R55). -/
def State.restoreTask (s : State) (l : Launch) (c b : Nat) (x : Candidate) : State :=
  let r := s.recheck (regsOf (s.recordOf l c x))
  let r := { r with flags := r.flags ||| x.lateFlags, count := 0, einfo := x.einfo r.einfo }
  let t := { x.task with
    effPrio := x.task.basePrio, ctxSlot := x.ctxSlot, ages := true, tables := (x.task.tables ++ [x.oldBerth]).dedup }
  let s := s.freeRecord c x
  let s : State :=
    { s with commands := s.commands.map fun (e : Nat × Command) =>
        if e.2.core = c ∧ e.2.task = t.uid then (e.1, { e.2 with berth := b }) else e }
  s.setBerth c b { s.seatBerth l c t r with einfoUnread := x.unread || x.heldEngine.isSome }

/-- The event of a corrupt record. -/
def State.postCorrupt (s : State) (l : Launch) (c : Nat) (x : Candidate) : State :=
  if s.recordSound l c x then s
  else s.post { code := 0x0005, lslot := x.task.slot, berth := 0x80, core := c, arg0 := l.ctxAddr c x.ctxSlot,
                arg1 := x.ctxSlot, command := none }

/-- The members of an evicted task, by core, berth and candidate, resumed; where a record is corrupt none is loaded, and the task
retires as failed, once (R54, R249). -/
def State.resume (s : State) (l : Launch) (ms : List (Nat × Nat × Candidate)) : State :=
  let s := ms.foldl (fun (s : State) m =>
    (s.chargeRange (l.ctxAddr m.1 m.2.2.ctxSlot) 1024).recordTrips m.1 false (l.ctxAddr m.1 m.2.2.ctxSlot) 1024) s
  if ms.all fun m => s.recordSound l m.1 m.2.2 then
    ms.foldl (fun (s : State) m => s.restoreTask l m.1 m.2.1 m.2.2) s
  else
    let t := ms.foldl (fun (s : State) m => (s.postCorrupt l m.1 m.2.2).freeRecord m.1 m.2.2) s
    match ms with
    | m :: _ => t.countTask m.2.2.task.slot true
    | [] => t

/-- The waiting list of a core without a candidate. -/
def State.unwait (s : State) (c : Nat) (x : Candidate) : State :=
  s.setCore c { s.core c with waiting := (s.core c).waiting.erase x }

/-- A walker goes on after the placement of its iteration (R64). -/
def State.nextIteration (s : State) (t : Task) : State :=
  match t.source with
  | .iteration _ n => (s.onLaunch t.slot fun (l : Launch) => { l with iteration := n + 1 }).later (.walkerOffer t.slot)
  | _ => s

/-- A candidate placed on the berths of its seat (R65, R76). -/
def State.placeChoice (s : State) (c : Nat) (x : Choice) : State :=
  match s.launch x.task.slot with
  | none => s
  | some l =>
    match s.seat l c with
    | none => s
    | some (b, d) =>
      let t := if l.redundant then { x.task with partner := some (pairCore c, d) } else x.task
      let u := { x.task with partner := some (c, b) }
      match x.waiting with
      | none =>
        let s := s.bump.setTq (clusterOf c) x.tq ((s.tq (clusterOf c) x.tq).drop 1)
        let s := s.startTask l c b t
        if l.redundant then s.startTask l (pairCore c) d u else s
      | some w =>
        let s := s.unwait c w
        if w.evicted then
          match l.redundant, (s.core (pairCore c)).waiting.find? fun y => y.evicted && y.task.uid == t.uid with
          | true, some y =>
            (s.unwait (pairCore c) y).resume l [(c, b, { w with task := t }),
              (pairCore c, d, { y with task := { y.task with partner := some (c, b) } })]
          | _, _ => s.resume l [(c, b, { w with task := t })]
        else
          let s := (s.startTask l c b t).nextIteration t
          if l.redundant then s.startTask l (pairCore c) d u else s

/-- TASK_PLACE (R76): while a candidate and a berth for it remain, the best is placed. -/
def State.taskPlace (s : State) (c fuel : Nat) : State :=
  match fuel with
  | 0 => s
  | n + 1 =>
    match bestChoice (s.choices c) with
    | some x => (s.placeChoice c x).taskPlace c n
    | none => s
def execTaskPlace (core : Nat) (s : State) : Host.Outcome State Fault Refusal :=
  .next (s.taskPlace core 8)

/-- TASK_AGE (R59): the effective priorities of a core's waiting tasks. -/
def execTaskAge (core : Nat) (s : State) : Host.Outcome State Fault Refusal :=
  .next (s.setCore core { s.core core with waiting := (s.core core).waiting.map fun (x : Candidate) =>
    if x.task.ages || x.evicted then
      { x with task := { x.task with effPrio := agedPrio x.task.basePrio (s.cycleOf core - x.since) } }
    else x })

end Sys2Proof.Machine
end

