-- ==== Sys2Proof/Machine/Evict.lean ====
section
/-! DEFINITION. Eviction: who may be evicted, why and where (R51, R52, R74, R77, R80, R101, R431), and how (R53, R206). -/

namespace Sys2Proof.Machine

/-- The header of a berth's next bundle. -/
def State.nextHeader (s : State) (c b : Nat) : Header :=
  Header.read ((Map.get? (s.core c).imem (s.berth c b).regs.pc.toNat).map ImemCell.word |>.getD 0)

/-- The bundles at which a berth can be evicted now (R51): after the completion of its last bundle, or before a PP bundle at
which it is stalled. For a cause that only PP serves, and for the time slice, which YLD serves too. -/
def State.atPre (s : State) (c b : Nat) : Bool :=
  let x := s.berth c b
  if x.status = .stalled then (s.nextHeader c b).pp else x.afterPre
def State.atPoint (s : State) (c b : Nat) : Bool :=
  let x := s.berth c b
  s.atPre c b || (x.status != .stalled && x.afterYield)

/-- What the last bundle of a berth left to be performed after its issue is done (R51). -/
def Berth.lastDone (x : Berth) : Bool := x.deferred.isNone && x.awaiting.isNone && x.revoking.isNone

/-- A berth whose last bundle is complete stands at the boundary after it. -/
def Berth.settle (x : Berth) : Berth :=
  if x.status = .stalled ∧ x.lastDone ∧ !x.closing then { x with status := .ready } else x

/-- The tasks of a core that are being evicted (R53). -/
def State.leaving (s : State) (c : Nat) : List Task :=
  ((List.range 8).filter fun b => (s.berth c b).status == .evicting).filterMap fun b => (s.berth c b).task

/-- Evicted tasks of a core that keep an entry of its successor store, those included that are being evicted (R74). -/
def State.storeUsed (s : State) (c : Nat) : Nat :=
  (((s.core c).waiting.filter fun x => x.evicted && !x.task.succs.isEmpty).length) +
    ((s.leaving c).filter fun t => !t.succs.isEmpty).length

/-- The context slots of a core that a launch has free beyond those that its tasks being evicted there will take (R52, R53). -/
def State.slotsLeft (s : State) (l : Launch) (slot c : Nat) : Nat :=
  16 - (l.ctxUsed.filter fun u => u.1 == c).length - ((s.leaving c).filter fun t => t.slot == slot).length

/-- A berth of its own can be evicted (R51, R52, R74, R77, R101, R431). -/
def State.canEvictOne (s : State) (c b : Nat) : Bool :=
  let x := s.berth c b
  match x.task with
  | none => false
  | some t =>
    (x.status == .ready || x.status == .stalled) && !x.sup && !x.atBar &&
      (x.regs.q.toList.all fun q => q.splice == .localQ || q.splice == .openQ) && (x.subs.all fun e => e.2.ended) &&
      (t.succs.isEmpty || decide (s.storeUsed c < 16)) &&
      ((s.launch t.slot).map fun l => decide (0 < s.slotsLeft l t.slot c)).getD false

/-- The partner of a berth's task. -/
def Berth.partner (x : Berth) : Option (Nat × Nat) := x.task.bind Task.partner

/-- A berth can be evicted, with its partner in a redundant pair (R250). -/
def State.canEvict (s : State) (c b : Nat) : Bool :=
  s.canEvictOne c b &&
    (match (s.berth c b).partner with
      | some (d, e) => s.canEvictOne d e
      | none => true)

/-- The effective priorities of the tasks that wait for a core: for the odd core of a pair too those that the even core holds for both
(R52, R65). -/
def State.waitingPrios (s : State) (c : Nat) : List Nat :=
  let twin := if c % 2 = 0 then [] else (s.core (pairCore c)).waiting.filter fun (x : Candidate) =>
    !x.evicted && ((s.launch x.task.slot).map Launch.redundant).getD false
  let w := (((s.core c).waiting ++ twin).filter fun (x : Candidate) =>
    ((s.launch x.task.slot).map fun l => s.takes l c).getD false).map fun x => x.task.effPrio
  let p := (List.range 16).filterMap fun q =>
    match s.tq (clusterOf c) q with
    | [] => none
    | h :: _ =>
      match s.launch (headerSlot h.header) with
      | none => none
      | some l =>
        if h.isTask && s.takes l c && s.inDomain l c then
          let base := min (hPrio h.header) l.prio
          some (if hNoAge h.header then base else agedPrio base (s.cycleOf (clusterOf c * 16) - h.since))
        else none
  w ++ p

/-- No berth of a core is FREE. -/
def State.coreFull (s : State) (c : Nat) : Bool := (List.range 8).all fun b => (s.berth c b).status != .free

/-- The base priority at which a berth's task runs (R78). -/
def Berth.prio (x : Berth) : Nat := (x.task.map Task.basePrio).getD 0

/-- The highest effective priority among the tasks that wait for a core. -/
def State.topWaiting (s : State) (c : Nat) : Option Nat := (s.waitingPrios c).max?

/-- A berth may be the victim of a pre-emption for a task that waits at a priority: not in the cycle in which its task was placed
(R77). -/
def State.mayYield (s : State) (c p b : Nat) : Bool :=
  s.canEvict c b && decide ((s.berth c b).prio < p) && decide (0 < (s.berth c b).resident)

/-- The victim of a pre-emption that is due at a core (R77): of berths equal in priority and residency the lowest. DESIGN CHOICE
(log 94). -/
def State.findVictim (s : State) (c : Nat) : Option Nat :=
  match s.coreFull c, s.topWaiting c with
  | true, some p =>
    let l := (List.range 8).filter (s.mayYield c p)
    l.find? fun b => l.all fun d =>
      decide ((s.berth c b).prio < (s.berth c d).prio) ||
        ((s.berth c b).prio == (s.berth c d).prio && decide ((s.berth c d).resident ≤ (s.berth c b).resident))
  | _, _ => none

/-- A victim that stands: it is being evicted, for whatever cause, or it may still be evicted for a task that waits (R77). -/
def State.victimStands (s : State) (c b : Nat) : Bool :=
  let x := s.berth c b
  x.status == .evicting || (s.coreFull c && ((s.topWaiting c).map fun p => s.mayYield c p b).getD false)

/-- The victim of a core brought up to date, as in every cycle (R77). -/
def State.chooseVictim (s : State) (c : Nat) : State :=
  let v := match (s.core c).victim with
    | some b => if s.victimStands c b then some b else s.findVictim c
    | none => s.findVictim c
  s.setCore c { s.core c with victim := v }

/-- The greatest score of a core's sub-units. -/
def State.coreScore (s : State) (c : Nat) : Nat := max (s.score 0 c) (max (s.score 1 c) (s.score 2 c))

/-- A lease on a core evicts tasks of every launch (R80, R255). DEDUCED (log 72). -/
def State.urgentLease (s : State) (c : Nat) : Bool :=
  decide (224 ≤ s.coreScore c) ||
    ((s.leaseOf 0 c).map fun l => decide (l.state ≤ 3) && decide (224 ≤ l.score)).getD false

/-- The lease cause of R52 for a berth of a core. -/
def State.leaseCause (s : State) (c : Nat) (x : Berth) : Bool :=
  (s.core c).service == .leasePending && (s.leased 0 c || s.leased 0 (pairCore c)) && (x.ltol || s.urgentLease c)

/-- Why a berth is to be evicted at its next PP bundle, or for the time slice at its next PP or YLD bundle (R52): 1
pre-emption, 2 time slice, 3 lease, 4 host request. -/
def State.evictCauses (s : State) (c b : Nat) : List Nat :=
  let host := ((s.launch (s.berth c b).slot).map fun l => l.preempted).getD false
  let pair (f : Nat → Nat → Bool) : Bool :=
    f c b || (match (s.berth c b).partner with
      | some (d, e) => f d e
      | none => false)
  let slice (d e : Nat) : Bool :=
    decide (65536 ≤ (s.berth d e).resident) && s.coreFull d &&
      ((s.topWaiting d).map fun p => decide ((s.berth d e).prio ≤ p)).getD false
  (if host then [4] else []) ++ (if pair fun d e => s.leaseCause d (s.berth d e) then [3] else []) ++
    (if pair fun d e => (s.core d).victim == some e && s.coreFull d then [1] else []) ++ (if pair slice then [2] else [])

/-- The cause for which a berth can be evicted where it stands, with its partner in a redundant pair at the same bundle (R51, R52,
R250). -/
def State.evictReason (s : State) (c b : Nat) : Option Nat :=
  (s.evictCauses c b).find? fun r =>
    let here (d e : Nat) : Bool := if r = 2 then s.atPoint d e else s.atPre d e
    here c b && (match (s.berth c b).partner with
      | some (d, e) => here d e && (s.berth d e).issued == (s.berth c b).issued
      | none => true)

/-- An eviction is due at the point where a berth stands, its last bundle complete (R51). -/
def State.evictDue (s : State) (c b : Nat) : Bool :=
  let done (d e : Nat) : Bool := (s.berth d e).lastDone
  (s.evictReason c b).isSome && s.canEvict c b && done c b && (match (s.berth c b).partner with
    | some (d, e) => done d e
    | none => true)

/-- TIME_SLICE_EXPIRY (R52): a task resident for 65,536 cycles becomes due, if a task of equal or higher effective priority
waits with no berth FREE. -/
def execTimeSliceExpiry (core berth : Nat) (s : State) : Host.Outcome State Fault Refusal :=
  .next (if (s.evictCauses core berth).contains 2 then s.onBerth core berth fun x => { x with evictCause := 2 } else s)

/-- Rows for the HELD entries of a berth's residual table. -/
def State.forceRows (s : State) (c b : Nat) : State :=
  match s.launch (s.berth c b).slot with
  | none => s
  | some l =>
    (List.range 16).foldl (fun (s : State) k =>
      if s.resState l c b k = 1 then s.later (.residualAgeForce c b k) else s) s

/-- A berth stops issue and enters EVICTING (R53): what its bundle has asked for is given up, its open segment is to commit,
and every HELD entry of its residual table is forced (R206). -/
def State.beginEvict (s : State) (c b : Nat) : State :=
  let r := (s.evictReason c b).getD 0
  let s := (s.giveUp c b).onBerth c b fun x => { x with status := .evicting, evictCause := r, closing := x.ckpt.isSome }
  let s := if (s.berth c b).closing then s.later (.segmentCommit c b) else s
  (s.forceRows c b).later (.evictionComplete c b)

/-- EVICTION_TAKE (R51, R52). -/
def State.evictionTake (s : State) (c b : Nat) : State :=
  if !s.evictDue c b then s
  else
    match (s.berth c b).partner with
    | some (d, e) => (s.beginEvict c b).beginEvict d e
    | none => s.beginEvict c b
def execEvictionTake (core berth : Nat) (s : State) : Host.Outcome State Fault Refusal := .next (s.evictionTake core berth)

/-- The record of an EVICTING berth written to the lowest free context slot of its core, the task among the core's waiting
tasks, and the berth FREE (R53). The task of a launch that is being terminated is discarded (R280), and on a retired core,
for which it would wait alone, it is retired as failed (R82). -/
def State.storeTask (s : State) (c b : Nat) (l : Launch) (t : Task) (n : Nat) : State :=
  let x := s.berth c b
  let once (s : State) : State := if t.partner.isNone || c % 2 == 0 then s.countTask t.slot true else s
  if l.terminated then once (s.freeBerth c b)
  else if (s.core c).service = .retired then
    once ((if t.partner.isNone || c % 2 == 0 then s.notifyLost c t else s).freeBerth c b)
  else
    let s := s.saveContext l c b n
    let s := s.onLaunch t.slot fun (l : Launch) => { l with ctxUsed := l.ctxUsed ++ [(c, n)] }
    let w : Candidate :=
      { task := { t with effPrio := t.basePrio }, evicted := true, ctxSlot := n, since := s.cycleOf c,
        oldBerth := b, heldEngine := x.heldEngine, unread := x.einfoUnread, lateFlags := 0 }
    let s := s.freeBerth c b
    (s.setCore c { s.core c with waiting := (s.core c).waiting ++ [w] }).coreIdle c

/-- EVICTION_COMPLETE (R53). DEDUCED (log 67). -/
def State.evictionComplete (s : State) (c b : Nat) : State :=
  let x := s.berth c b
  match x.task with
  | none => s
  | some t =>
    match s.launch t.slot with
    | none => s
    | some l =>
      let quiet := !s.migratingIn (l.ctxAddr c 0) 16384 && s.resultsDone c b && x.ckpt.isNone && x.held.isEmpty && (s.walks.all fun w => !(w.core == c && w.berth == b)) &&
        s.accesses.all fun e => !(e.2.core == c && e.2.berth == b)
      match decide (x.status = .evicting) && quiet, l.freeCtx c with
      | true, some n => s.storeTask c b l t n
      | _, _ => s
def execEvictionComplete (core berth : Nat) (s : State) : Host.Outcome State Fault Refusal :=
  .next (s.evictionComplete core berth)

end Sys2Proof.Machine
end

