-- ==== Sys2Proof/Machine/Launching.lean ====
section
/-! DEFINITION. Launches: the FIFO, the checks and the admission of a launch (R40 to R48), the walkers and dispatchers (R63,
R64, R70, R71), spill refills (R104), the end of a launch (R39, R49, R107), and the host's control of it (R280). -/

namespace Sys2Proof.Machine

/-! ## The record and its tables (R41, R42) -/

/-- A level entry. -/
def levelOf (x : Nat) : Level :=
  { kind := bits x 0 8, mscope := bits x 8 8, first := bits x 32 32, count := bits x 64 32 }

/-- A program-table entry. -/
def programOf (x : Nat) : Program :=
  { va := bits x 0 64, firstCore := bits x 64 16, coreCount := bits x 80 16, firstBundle := bits x 96 16,
    bundles := bits x 112 16 }

/-- A start-vector entry. -/
def startVectorOf (x : Nat) : StartVector := { core := bits x 0 11, entry := bits x 16 11, arg := bits x 32 32 }

/-- A loop-nest record. -/
def nestOf (x : Nat) : Nest :=
  let n := bits x 0 8
  { ndim := n, tlevel := bits x 8 8, entry := bits x 16 11, order := bits x 32 32, arg := bits x 64 32,
    bounds := (List.range n).map fun j => bits x (8 * (0x10 + 8 * j)) 32
    steps := (List.range n).map fun j => bits x (8 * (0x14 + 8 * j)) 32 }

/-- The launch that a record lays down, its tables not yet read. Of ACCQ the 16 bits of the quota are kept. DESIGN CHOICE
(log 79). -/
def launchOf (addr x : Nat) : Launch :=
  let f (o n : Nat) : Nat := bits x (8 * o) (8 * n)
  { addr := addr, slot := 0, redundant := bit (f 3 1) 0, leasetol := bit (f 3 1) 1, checked := bit (f 3 1) 2, prio := f 4 1 % 4,
    notifyQ := f 5 1 % 16, notifyCl := f 6 2, pbound := .ofNat 32 (f 8 4), accq := .ofNat 16 (f 0xC 4),
    resbase := f 0x34 4, ctxarea := f 0x40 8,
    levels := (List.range (min 8 (f 2 1))).map fun i => levelOf (f (0x80 + 16 * i) 16)
    c0 := 0, programs := [], startVectors := [], nests := [], toLoad := [], toOffer := [], record := 0, iteration := 0, cursor := 0,
    ctxUsed := [], failures := 0, faulted := false, since := [], preempted := false, terminated := false }

/-- Entries of a table in virtual memory. -/
def State.table {α : Type} (s : State) (va n size : Nat) (f : Nat → α) : List α :=
  (List.range n).map fun i => f (s.readV (va + size * i) size)

/-- The bank-grant entry of a cluster. -/
def State.grant (s : State) (banktab cl : Nat) : Nat := s.readV (banktab + 8 * cl) 8

/-! ## The checks of R46 -/

/-- The levels obey R44, and every domain lies within its parent. -/
def levelsFit (redundant : Bool) : Nat → Nat → List Level → Bool
  | _, _, [] => true
  | above, parent, l :: ls =>
    let kind := if redundant && l.kind == 1 then 2 else l.kind
    let range := if kind = parent then 1 else unitsWithin kind parent
    decide (l.kind < above) && decide (l.kind ≤ l.mscope) && decide (l.mscope ≤ 7) && decide (1 ≤ l.count) &&
      decide (l.first + l.count ≤ range) && (!(redundant && l.kind == 1) || decide (l.count ≤ 8)) &&
      levelsFit redundant l.kind (if l.kind = 0 then parent else kind) ls

/-- ORDER is a permutation of the dimensions, its other bits zero. -/
def orderFits (n order : Nat) : Bool :=
  decide (order < 2 ^ (3 * n)) &&
    (List.range n).all fun d => (List.range n).any fun p => bits order (3 * p) 3 == d

/-- A loop-nest record passes check 0x06. -/
def nestFits (levels : Nat) (x : Nest) : Bool :=
  decide (1 ≤ x.ndim) && decide (x.ndim ≤ 6) && orderFits x.ndim x.order && (x.steps.all fun t => decide (1 ≤ t)) &&
    decide (x.tlevel < levels)

/-- The program table loads a bundle onto a core. -/
def loads (ps : List Program) (c e : Nat) : Bool :=
  ps.any fun p => decide (p.firstCore ≤ c) && decide (c < p.firstCore + p.coreCount) && decide (p.firstBundle ≤ e) &&
    decide (e < p.firstBundle + p.bundles)

/-- Two ranges share a bundle of a core. -/
def Program.clashes (p q : Program) : Bool :=
  p.coreCount != 0 && p.bundles != 0 && q.coreCount != 0 && q.bundles != 0 &&
  decide (p.firstCore < q.firstCore + q.coreCount) && decide (q.firstCore < p.firstCore + p.coreCount) &&
    decide (p.firstBundle < q.firstBundle + q.bundles) && decide (q.firstBundle < p.firstBundle + p.bundles)

/-- No two entries of a list are related. -/
def noPair {α : Type} (f : α → α → Bool) : List α → Bool
  | [] => true
  | x :: l => (l.all fun y => !(f x y)) && noPair f l

/-- The clusters of a launch's domain. -/
def State.domainClusters (s : State) (l : Launch) : List Nat := (List.range 96).filter (s.clusterInDomain l)

/-- The residual tables of the launch's cores in a cluster lie in granted banks (R45). -/
def State.residualFits (s : State) (l : Launch) (banktab cl : Nat) : Bool :=
  (List.range 16).all fun i => !(s.inDomain l (16 * cl + i)) ||
    (decide (l.resEntry (16 * cl + i) 0 0 + 36864 ≤ spadSize) &&
      (rangeBanks (l.resEntry (16 * cl + i) 0 0) 36864).all fun b => bit (s.grant banktab cl) b)

/-- The cores that a loop-nest record targets. -/
def State.nestCores (s : State) (l : Launch) (x : Nest) : List Nat :=
  let cs := if l.redundant then (l.coresTo (x.tlevel + 1)).filter fun c => c % 2 == 0 else l.coresTo (x.tlevel + 1)
  (cs.filter (s.inDomain l)).mergeSort

/-- The highest core of the launch's domain. -/
def State.highestCore (s : State) (l : Launch) : Nat := (l.cores.filter (s.inDomain l)).foldl max 0

/-- The tables of a launch record that the launch unit translates, by their addresses and sizes. -/
def State.recordTables (s : State) (addr : Nat) : List (Nat × Nat) :=
  let f (o n : Nat) : Nat := bits (s.mem.read addr 256) (8 * o) (8 * n)
  (if bit (f 3 1) 4 then [(f 0x10 8, 8 * (f 0x18 4 % 65536))] else []) ++
    (if bit (f 3 1) 3 then [(f 0x20 8, 64 * (f 0x1C 4 % 128))] else []) ++ [(f 0x28 8, 16 * f 0x30 4), (f 0x38 8, 768)]

/-- The launch in a record, or the code of the first check that fails (R46). The alignment of a table that a clear flag leaves
unread is not checked, nor the range of PROGCOUNT, which has no code. DESIGN CHOICE (log 79). -/
def State.readLaunch (s : State) (addr : Nat) : Except Nat Launch :=
  let x := s.mem.read addr 256
  let f (o n : Nat) : Nat := bits x (8 * o) (8 * n)
  let l := launchOf addr x
  let nest := bit (f 3 1) 3
  let svec := bit (f 3 1) 4
  if f 0 2 ≠ 1 ∨ addr % 256 ≠ 0 then .error 1
  else if f 2 1 < 1 ∨ 8 < f 2 1 ∨ bits (f 3 1) 5 3 ≠ 0 ∨ bits (f 4 1) 2 6 ≠ 0 then .error 2
  else if !levelsFit l.redundant 6 6 l.levels then .error 3
  else if (!svec && !nest) || (svec && (f 0x18 4 == 0 || decide (65535 < f 0x18 4))) ||
      (nest && (f 0x1C 4 == 0 || decide (64 < f 0x1C 4))) then .error 4
  else if svec && !s.translates (f 0x10 8) (8 * f 0x18 4) then .error 0xB
  else
    let svs := if svec then s.table (f 0x10 8) (f 0x18 4) 8 startVectorOf else []
    if svs.any fun v => !s.inDomain l v.core then .error 5
    else if nest && !s.translates (f 0x20 8) (64 * f 0x1C 4) then .error 0xB
    else
      let nests := if nest then s.table (f 0x20 8) (f 0x1C 4) 64 nestOf else []
      if nests.any fun n => !nestFits l.levels.length n then .error 6
      else if !s.translates (f 0x28 8) (16 * f 0x30 4) then .error 0xB
      else
        let ps := s.table (f 0x28 8) (f 0x30 4) 16 programOf
        if (svs.any fun v => !loads ps v.core v.entry || (l.redundant && !loads ps (pairCore v.core) v.entry)) ||
            (nests.any fun n => ((l.coresTo (n.tlevel + 1)).filter (s.inDomain l)).any fun c => !loads ps c n.entry) then
          .error 7
        else if (ps.any fun p => decide (2048 < p.firstBundle + p.bundles)) || !noPair Program.clashes ps then .error 8
        else if !s.translates (f 0x38 8) 768 then .error 0xB
        else if l.resbase % 256 ≠ 0 then .error 9
        else if (s.domainClusters l).any fun cl => !s.residualFits l (f 0x38 8) cl then .error 9
        else if !s.clusterInDomain l l.notifyCl then .error 0xA
        else if (svec && f 0x10 8 % 8 != 0) || (nest && f 0x20 8 % 64 != 0) || f 0x28 8 % 16 != 0 || f 0x38 8 % 8 != 0 ||
            l.ctxarea % 65536 != 0 ||
            !s.translates l.ctxarea (16384 * (s.highestCore l - s.lowestCore l + 1)) then .error 0xB
        else .ok { l with programs := ps, startVectors := svs, nests := nests }

/-! ## LAUNCH_WRITE and LAUNCH_ADMISSION (R40, R47, R48) -/

/-- LAUNCH_WRITE (R40): the launch unit takes no write while an event of its waits to be accepted (R274). -/
def State.launchWrite (s : State) (addr : Word) : State :=
  s.unlessHeld [1, 2, 3] (.launchWrite addr)
    (if 16 ≤ s.fifo.length then s.postDevice 0x0002 0xFF addr.toNat 0
      else { s with fifo := s.fifo ++ [addr] }.later .launchAdmission)
def execLaunchWrite (addr : Word) (s : State) : Host.Outcome State Fault Refusal := .next (s.launchWrite addr)

/-- The lowest free launch slot. -/
def State.freeSlot (s : State) : Option Nat := (List.range 16).find? fun n => (s.launch n).isNone

/-- A bank granted to a launch, or pending for it (R48). -/
def Bank.grantTo (b : Bank) (slot : Nat) (bmode : Bool) : Bank :=
  let b := if bmode then { b with bmodeGrant := b.bmodeGrant ++ [slot] } else b
  if b.owner = none then { b with owner := some slot } else { b with pending := b.pending ++ [slot] }

/-- The bank grants of a launch (R42, R48). -/
def State.grantBanks (s : State) (slot banktab : Nat) : State :=
  (List.range 96).foldl (fun (t : State) cl =>
    let g := s.grant banktab cl
    if g = 0 then t
    else t.setCluster cl ((banksOf (.ofNat 64 g)).foldl (fun (k : Cluster) n =>
      k.onBank n fun b => b.grantTo slot (bit g (32 + n))) (t.cluster cl))) s

/-- The cores of its domain that a program-table entry names, as what is to be loaded (R47). -/
def State.loadList (s : State) (l : Launch) : List (Nat × Nat) :=
  let cores := l.cores.filter (s.inDomain l)
  ((List.range l.programs.length).map fun i =>
    match l.programs[i]? with
    | some p => (cores.filter fun c => decide (p.firstCore ≤ c) && decide (c < p.firstCore + p.coreCount)).map fun c => (i, c)
    | none => []).flatten

/-- The core cycle of each island (R27). -/
def State.islandCycles (s : State) : List Nat :=
  (List.range 24).map fun i => s.cycleOf (16 * (((List.range 96).find? fun cl => islandOf cl == i).getD 0))

/-- A launch admitted in a slot. -/
def State.enterLaunch (s : State) (slot : Nat) (l : Launch) : State :=
  let l := { l with
    slot := slot, since := s.islandCycles, c0 := s.lowestCore l, toLoad := s.loadList l, toOffer := List.range l.startVectors.length }
  let s := (s.setLaunch slot l).grantBanks slot (s.mem.read (l.addr + 0x38) 8)
  let s := l.toLoad.foldl (fun (s : State) x => s.later (.programLoad slot x.1 x.2)) s
  s.later (.walkerOffer slot)

/-- No page of a record's tables is being migrated (R167). -/
def State.tablesQuiet (s : State) (addr : Nat) : Bool := (s.recordTables addr).all fun t => !s.migratingIn t.1 t.2

/-- The channels of leaves of a record's tables that do not read alike charged (R157). -/
def State.chargeTables (s : State) (addr : Nat) : State :=
  (s.recordTables addr).foldl (fun (s : State) t => s.chargeRange t.1 t.2) s

/-- The tables that the launch unit has read of a record when its checks end as they do (R46): those before the first that does not
translate, as far as the checks have come. -/
def State.tablesRead (s : State) (addr : Nat) : List (Nat × Nat) :=
  let f (o : Nat) : Bool := bit (bits (s.mem.read addr 256) 24 8) o
  let sv := if f 4 then 1 else 0
  let n := sv + if f 3 then 1 else 0
  let l := (s.recordTables addr).takeWhile fun t => s.translates t.1 t.2
  match s.readLaunch addr with
  | .ok _ => l
  | .error code => if code ≤ 4 then [] else l.take (if code = 5 then sv else if code = 6 then n else if code ≤ 8 then n + 1 else n + 2)

/-- The launch unit's reads of a record and its tables carried (R18). -/
def State.recordReads (s : State) (addr : Nat) : State :=
  (s.tablesRead addr).foldl (fun (t : State) x => t.rangeTrips x.1 x.2 fun u pa n => u.dieTrips false pa n)
    (s.dieTrips false addr 256)

/-- LAUNCH_ADMISSION (R40, R46). -/
def State.admission (s : State) : State :=
  if s.waits [1, 2, 3] then s else
  match s.fifo, s.freeSlot with
  | a :: rest, some slot =>
    if !s.tablesQuiet a.toNat then s else
    let s := ({ s with fifo := rest }.chargeTables a.toNat).recordReads a.toNat
    let s := match s.readLaunch a.toNat with
      | .error code => s.postDevice 0x0003 0xFF a.toNat code
      | .ok l => s.enterLaunch slot l
    if rest.isEmpty then s else s.later .launchAdmission
  | _, _ => s
def execLaunchAdmission (s : State) : Host.Outcome State Fault Refusal := .next s.admission

/-! ## PROGRAM_LOAD (R47, R63) -/

/-- Some bundle of a range belongs to another launch. -/
def Core.rangeHeld (k : Core) (slot first n : Nat) : Bool :=
  k.imem.any fun e => decide (first ≤ e.1) && decide (e.1 < first + n) &&
    e.2.owner.isSome && e.2.owner != some slot

/-- The bundles of a range copied to instruction memory. A bundle whose address does not translate is not loaded.
DEDUCED (log 43). -/
def State.loadBundles (s : State) (slot c : Nat) (p : Program) : State :=
  (List.range p.bundles).foldl (fun (t : State) i =>
    if s.translates (p.va + 32 * i) 32 then
      t.setCore c { t.core c with
        imem := Map.set (t.core c).imem (p.firstBundle + i) { word := s.readV (p.va + 32 * i) 32, owner := some slot } }
    else t) s

/-- The bundles of a range read by the launch unit, and carried from the I/O die to a core's cluster (R18). DESIGN CHOICE (log 77). -/
def State.carryProgram (s : State) (c : Nat) (p : Program) : State :=
  (s.rangeTrips p.va (32 * p.bundles) fun t pa n => t.dieTrips false pa n).carryData (32 * p.bundles) .ioDie
    (.quay (clusterOf c))

/-- A task offered to a core by the launch unit, or a walker, on the I/O die (R18). DESIGN CHOICE (log 77). -/
def State.offer (s : State) (c : Nat) (w : Candidate) : State :=
  (s.carry pkUnit .ioDie (.quay (clusterOf c))).setCore c { s.core c with waiting := (s.core c).waiting ++ [w] }

/-- The start vectors of a core offered, in table order, once its ranges are loaded (R63). -/
def State.offerVectors (s : State) (slot c : Nat) : State :=
  match s.launch slot with
  | none => s
  | some l =>
    let home (v : StartVector) : Nat := if l.redundant then v.core / 2 * 2 else v.core
    if !l.loaded c || (l.redundant && !l.loaded (pairCore c)) then s
    else
      let h := if l.redundant then c / 2 * 2 else c
      let since := l.since.getD (islandOf (clusterOf h)) 0
      let mine (i : Nat) : Bool := ((l.startVectors[i]?).map fun v => home v == h).getD false
      let s := (l.toOffer.filter mine).foldl (fun (s : State) i =>
        match l.startVectors[i]? with
        | none => s
        | some v =>
          let t : Task :=
            { slot := slot, uid := s.stamp, source := .startVector i, ages := true, entry := v.entry, basePrio := l.prio,
              effPrio := agedPrio l.prio (s.cycleOf h - since), args := [.ofNat 64 v.arg], origins := [], succs := [],
              failSucc := false, ctxSlot := 0, tables := [], partner := none }
          let w : Candidate :=
            { task := t, evicted := false, ctxSlot := 0, since := since, oldBerth := 0, heldEngine := none, unread := false,
              lateFlags := 0 }
          s.bump.offer h w) s
      ((s.setLaunch slot { l with toOffer := l.toOffer.filter fun i => !mine i }).later (.taskPlace h)).later
        (.walkerOffer slot)

/-- PROGRAM_LOAD (R47): waits while a bundle of the range belongs to another launch, or its page is being migrated (R167). -/
def State.programLoad (s : State) (slot entry c : Nat) : State :=
  match s.launch slot with
  | none => s
  | some l =>
    match l.programs[entry]? with
    | none => s
    | some p =>
      if !l.toLoad.contains (entry, c) || (s.core c).rangeHeld slot p.firstBundle p.bundles ||
          s.migratingIn p.va (32 * p.bundles) then s
      else
        (((s.chargeRange p.va (32 * p.bundles)).loadBundles slot c p).carryProgram c p |>.setLaunch slot { l with toLoad := l.toLoad.filter fun x => x != (entry, c) }).offerVectors
          slot c
def execProgramLoad (slot entry core : Nat) (s : State) : Host.Outcome State Fault Refusal :=
  .next (s.programLoad slot entry core)

/-! ## WALKER_OFFER (R42, R64) -/

/-- The tile iterations of each dimension, and their number. -/
def Nest.counts (x : Nest) : List Nat :=
  (List.range x.ndim).map fun j => let t := x.steps.getD j 1; (x.bounds.getD j 0 + t - 1) / t
def Nest.total (x : Nest) : Nat := x.counts.foldl (· * ·) 1

/-- The index of dimension d in iteration n: the last position of ORDER varies fastest. -/
def Nest.index (x : Nest) (n d : Nat) : Nat :=
  let inner := (List.range x.ndim).filter fun p =>
    (List.range p).any fun q => bits x.order (3 * q) 3 == d
  n / (inner.foldl (fun t p => t * x.counts.getD (bits x.order (3 * p) 3) 1) 1) % x.counts.getD d 1

/-- The origins of an iteration (R38). -/
def Nest.origins (x : Nest) (n : Nat) : List Word :=
  (List.range 6).map fun d => if d < x.ndim then .ofNat 64 (x.index n d * x.steps.getD d 1) else 0

/-- A waiting candidate is an iteration offered to a core. -/
def Candidate.isOffer (w : Candidate) : Bool :=
  !w.evicted && (match w.task.source with
    | .iteration .. => true
    | _ => false)

/-- An iteration of a launch's walker stands offered. -/
def State.walkerBusy (s : State) (slot : Nat) : Bool :=
  s.cores.any fun e => e.2.waiting.any fun w => w.task.slot == slot && w.isOffer

/-- WALKER_OFFER (R64): the next iteration is offered to the first eligible core at or after the cursor; a record whose
iterations are all placed gives way to the next. -/
def State.walkerOffer (s : State) (slot : Nat) : State :=
  match s.launch slot with
  | none => s
  | some l =>
    match l.nests[l.record]? with
    | none => s.later (.launchComplete slot)
    | some x =>
      if x.total ≤ l.iteration then
        (s.setLaunch slot { l with record := l.record + 1, iteration := 0, cursor := 0 }).later (.walkerOffer slot)
      else if l.preempted || l.terminated || s.walkerBusy slot then s
      else
        let cs := s.nestCores l x
        let ok (c : Nat) : Bool := (s.seat l c).isSome
        match (cs.filter fun c => decide (l.cursor ≤ c)).find? ok <|> cs.find? ok with
        | none => s
        | some c =>
          let t : Task :=
            { slot := slot, uid := s.stamp, source := .iteration l.record l.iteration, ages := true, entry := x.entry,
              basePrio := l.prio, effPrio := l.prio, args := [.ofNat 64 x.arg], origins := x.origins l.iteration, succs := [],
              failSucc := false, ctxSlot := 0, tables := [], partner := none }
          let w : Candidate :=
            { task := t, evicted := false, ctxSlot := 0, since := s.cycleOf c, oldBerth := 0, heldEngine := none, unread := false,
              lateFlags := 0 }
          let s := s.bump.offer c w
          (s.setLaunch slot { l with cursor := c + (if l.redundant then 2 else 1) }).later (.taskPlace c)
def execWalkerOffer (slot : Nat) (s : State) : Host.Outcome State Fault Refusal := .next (s.walkerOffer slot)

/-- The offers to a core that pass a test withdrawn; their walkers place them afresh. -/
def State.withdraw (s : State) (c : Nat) (f : Candidate → Bool) : State :=
  let out := (s.core c).waiting.filter fun w => w.isOffer && f w
  let s := s.setCore c { s.core c with waiting := (s.core c).waiting.filter fun w => !out.contains w }
  out.foldl (fun (s : State) w => s.later (.walkerOffer w.task.slot)) s

/-- A core leaves IN_SERVICE: the walkers withdraw what they have offered to it, and of redundant launches what they have offered
to its pair (R64, R65). -/
def State.withdrawOffers (s : State) (c : Nat) : State :=
  let paired (w : Candidate) : Bool := ((s.launch w.task.slot).map Launch.redundant).getD false
  (s.withdraw c fun _ => true).withdraw (pairCore c) paired

/-! ## DISPATCHER_OFFER (R70, R71) -/

/-- DISPATCHER_OFFER: a malformed head is removed and counted; a TASK packet is offered to the cluster's cores. -/
def State.dispatcherOffer (s : State) (cl tq : Nat) : State :=
  match s.tq cl tq with
  | [] => s
  | p :: rest =>
    if p.reserved.isSome then s
    else if p.malformed then
      let slot := headerSlot p.header
      (((s.postQuay cl 0x0006 slot p.header.toNat (tq + cl * 2 ^ 8)).setTq cl tq rest).countTask slot true)
    else if p.isTask then (List.range 16).foldl (fun (s : State) i => s.later (.taskPlace (16 * cl + i))) s
    else s
def execDispatcherOffer (cluster tq : Nat) (s : State) : Host.Outcome State Fault Refusal :=
  .next (s.dispatcherOffer cluster tq)

/-! ## SPILL_REFILL (R104, R353) -/

/-- The words of the packet at a counter of a ring. -/
def State.ringPacket (s : State) (cl q w : Nat) : Nat × List Word :=
  let units := (s.mem.byte (s.ringUnit cl q w)).toNat % 8 + 1
  (units, ((List.range units).map fun u => wordsOf 4 (s.mem.read (s.ringUnit cl q (w + u)) 32)).flatten)

/-- The reservation whose position in a ring starts at a counter. -/
def State.ringReserved (s : State) (cl q w : Nat) : Option Reservation :=
  (s.reservations.find? fun e => e.2.cluster == cl && e.2.tq == q && e.2.ring == some w).map Prod.snd

/-- SPILL_REFILL: the packet at the ring's head moves to the hardware queue once its entries are free. -/
def State.spillRefill (s : State) (cl q : Nat) : State :=
  let rd := s.ringRd cl q
  if s.ringOcc cl q = 0 || (s.ringReserved cl q rd).isSome then s
  else
    let (units, words) := s.ringPacket cl q rd
    if s.tqFree cl q < units then s
    else
      let s := (List.range units).foldl (fun (t : State) u => t.ringTrips cl false (s.ringUnit cl q (rd + u)) 32) s
      (s.bump.putRing cl q 0x14 ((rd + units) % 2 ^ 32)).setTq cl q
        (s.tq cl q ++ [{ words := words, units := units, num := s.stamp, since := s.cycleOf (16 * cl), reserved := none }])
def execSpillRefill (cluster tq : Nat) (s : State) : Host.Outcome State Fault Refusal := .next (s.spillRefill cluster tq)

/-! ## The packets of a launch (R39, R353) -/

/-- The packets in a ring from a counter on, with the counters at which they start: units, and the header of a written
one. -/
def State.ringList (s : State) (cl q : Nat) : Nat → Nat → List (Nat × Nat × Option Word)
  | 0, _ => []
  | fuel + 1, w =>
    if (s.ringWr cl q + 2 ^ 32 - w) % 2 ^ 32 = 0 then []
    else
      let (units, h) := match s.ringReserved cl q w with
        | some r => (r.units, none)
        | none => ((s.ringPacket cl q w).1, some ((s.ringPacket cl q w).2.head?.getD 0))
      (w, units, h) :: s.ringList cl q fuel ((w + units) % 2 ^ 32)

/-- A packet of a launch in a ring removed: the positions behind it close up. -/
def State.removeRing (s : State) (cl q w units : Nat) : State :=
  let r : Reservation := { cluster := cl, tq := q, units := units, launch := 0, ring := some w }
  ({ s.bump with reservations := Map.set s.reservations s.stamp r }).withdrawPlace s.stamp

/-- Every task queue as (cluster, number). -/
def allQueues : List (Nat × Nat) := ((List.range 96).map fun cl => (List.range 16).map fun q => (cl, q)).flatten

/-- The packets stamped with a launch's slot removed from every queue and ring. -/
def State.purge (s : State) (slot : Nat) : State :=
  allQueues.foldl (fun (s : State) (x : Nat × Nat) =>
    let l := s.tq x.1 x.2
    let keep := l.filter fun p => p.reserved.isSome || headerSlot p.header != slot
    let s := if keep = l then s else s.setTq x.1 x.2 keep
    let spilled := (s.ringList x.1 x.2 (s.ringOcc x.1 x.2) (s.ringRd x.1 x.2)).filter fun e =>
      (e.2.2.map fun h => headerSlot h == slot).getD false
    spilled.reverse.foldl (fun (s : State) e => s.removeRing x.1 x.2 e.1 e.2.1) s) s

/-- A TASK packet of a launch is queued, spilled, or has a place reserved. -/
def State.taskQueued (s : State) (slot : Nat) : Bool :=
  let task (h : Word) : Bool := headerSlot h == slot && (hType h == 0 || decide (3 ≤ hType h))
  (s.reservations.any fun e => e.2.launch == slot) ||
    allQueues.any fun x =>
      ((s.tq x.1 x.2).any fun p => p.reserved.isNone && task p.header) ||
        ((s.ringList x.1 x.2 (s.ringOcc x.1 x.2) (s.ringRd x.1 x.2)).any fun e => (e.2.2.map task).getD false)

/-! ## LAUNCH_COMPLETE (R39, R49, R75, R107) -/

/-- An accumulate of a launch on its way. -/
def Msg.accFor (m : Msg) (slot : Nat) : Bool :=
  match m with
  | .acc a => a.slot == slot
  | _ => false

/-- Every task that a launch started or is to start has retired, their successors are notified, and every addend of the launch is
delivered (R39, R61, R82). -/
def State.launchDone (s : State) (slot : Nat) (l : Launch) : Bool :=
  (l.terminated || (l.toOffer.isEmpty && decide (l.nests.length ≤ l.record))) &&
    (s.cores.all fun e => (e.2.waiting.all fun w => w.task.slot != slot) &&
      e.2.berths.toList.all fun x => x.slot != slot) &&
    (s.commands.all fun e => e.2.slot != slot) && !s.taskQueued slot && (s.toNotify.all fun x => x.1.slot != slot) &&
    (s.messages.all fun e => !(e.2.accFor slot)) &&
    s.cores.all fun e => !l.hasTables e.1 || (List.range 8).all fun b => !s.holdsResidual l e.1 b

/-- What a launch holds of a cluster released: its banks as if by BREL, and its rings, which are disabled as they stand. -/
def Cluster.dropLaunch (k : Cluster) (slot : Nat) : Cluster :=
  { k with
    banks := k.banks.map fun (b : Bank) =>
      let b := { b with pending := b.pending.filter fun n => n != slot, bmodeGrant := b.bmodeGrant.filter fun n => n != slot }
      if b.owner = some slot then b.release else b
    rings := k.rings.map fun (e : Nat × Ring) => (e.1, if e.2.owner = some slot then { e.2 with owner := none } else e.2) }

/-- The instruction memory of a launch released (R47). -/
def Core.dropLaunch (k : Core) (slot : Nat) : Core :=
  { k with imem := k.imem.map fun (e : Nat × ImemCell) =>
      (e.1, if e.2.owner = some slot then { e.2 with owner := none } else e.2) }

/-- LAUNCH_COMPLETE. -/
def State.launchComplete (s : State) (slot : Nat) : State :=
  match s.launch slot with
  | none => s
  | some l =>
    if !s.launchDone slot l || s.waits [1, 2, 3] then s
    else
      let s := s.purge slot
      let s := { s with
        clusters := s.clusters.map fun (e : Nat × Cluster) => (e.1, e.2.dropLaunch slot)
        cores := s.cores.map fun (e : Nat × Core) => (e.1, e.2.dropLaunch slot)
        launches := Map.erase s.launches slot
        barriers := s.barriers.filter fun (b : Barrier) => b.slot != slot
        phases := s.phases.filter fun (e : Nat × Nat) => e.1 / 16 % 16 != slot
        contributions := s.contributions.filter fun (x : Contribution) => x.slot != slot }
      let s := s.postDevice 0x0001 slot l.addr (l.failures + one l.terminated * 2 ^ 32)
      let s := s.launches.foldl (fun (s : State) e =>
        e.2.toLoad.foldl (fun (s : State) x => s.later (.programLoad e.1 x.1 x.2)) s) s
      if s.fifo.isEmpty then s else s.later .launchAdmission
def execLaunchComplete (slot : Nat) (s : State) : Host.Outcome State Fault Refusal := .next (s.launchComplete slot)

/-! ## LCTRL (R280) -/

/-- LCTRL_PREEMPT: every task of the launch is to be evicted, and none is placed or resumed. -/
def execLctrlPreempt (slot : Nat) (s : State) : Host.Outcome State Fault Refusal :=
  .next (s.onLaunch slot fun (l : Launch) => { l with preempted := true })

/-- LCTRL_RESUME. -/
def execLctrlResume (slot : Nat) (s : State) : Host.Outcome State Fault Refusal :=
  .next ((s.onLaunch slot fun (l : Launch) => { l with preempted := false }).later (.walkerOffer slot))

/-- The odd member of a redundant pair, whose queues share their bytes with the even member's (R248, R249). -/
def State.shadow (s : State) (c b : Nat) : Bool := (s.berth c b).red && c % 2 == 1

/-- The held items of a failed attempt discarded: places are withdrawn, and commands with their records (R244). -/
def State.discardItems (s : State) (c b : Nat) : State :=
  let s := s.giveUp c b
  let s := (s.berth c b).held.foldl (fun (s : State) h => match h with
    | .enq r _ _ _ => if s.shadow c b then s else s.withdrawPlace r
    | .command id => { s with commands := Map.erase s.commands id }
    | _ => s) s
  s.onBerth c b fun y => { y with held := [] }

/-- A berth's open segment discarded: its held commands and its reservations are withdrawn. -/
def State.discardHeld (s : State) (c b : Nat) : State :=
  (s.discardItems c b).onBerth c b fun x => { x with
    ckpt := none, error := none, closing := false, awaits := none, diverged := false, deferred := none, matched := false }

/-- A berth of a terminated launch stops at its next boundary: it discards its held items, its task retires as failed, unless it was
DRAINING, and notifies no successor (R280). -/
def State.stopBerth (s : State) (c b : Nat) : State :=
  let x := s.berth c b
  if x.status = .free then s
  else
    let s := (s.discardHeld c b).onBerth c b fun x =>
      if x.status = .draining then x else { x.fail with park := none, awaiting := none, atBar := false, revoking := none }
    s.later (.taskRetire c b)

/-- The waiting tasks of a launch on a core discarded; the evicted ones count as failed (R277). -/
def State.dropWaiting (s : State) (slot c : Nat) : State :=
  let out := (s.core c).waiting.filter fun w => w.task.slot == slot
  let s := s.setCore c { s.core c with waiting := (s.core c).waiting.filter fun w => w.task.slot != slot }
  (out.filter fun w => w.evicted && (w.task.partner.isNone || c % 2 == 0)).foldl (fun (s : State) _ => s.countTask slot true) s

/-- LCTRL_TERMINATE. -/
def State.terminate (s : State) (slot : Nat) : State :=
  match s.launch slot with
  | none => s
  | some _ =>
    let s := s.onLaunch slot fun (l : Launch) => { l with terminated := true, toOffer := [], toLoad := [], ctxUsed := [] }
    let s := { s with toNotify := s.toNotify.filter fun x => x.1.slot != slot }
    let s := s.cores.foldl (fun (s : State) e =>
      (List.range 8).foldl (fun (s : State) b =>
        if (s.berth e.1 b).slot = slot then s.stopBerth e.1 b else s) (s.dropWaiting slot e.1)) s
    (s.purge slot).later (.launchComplete slot)
def execLctrlTerminate (slot : Nat) (s : State) : Host.Outcome State Fault Refusal := .next (s.terminate slot)

end Sys2Proof.Machine
end

