-- ==== Sys2Proof/Machine/Traffic.lean ====
section
/-! DEFINITION. Requests and replies on their way: reservations (R353), splices (R96 to R100), walks (R159), CORE accesses
(R138, R166, R192, R193, R198, R217, R226, R227, R231, R232, R234, R325), and pages that migrate (R167). -/

namespace Sys2Proof.Machine

/-- The live registers of a berth, and those of its checkpoint, changed alike. -/
def Berth.onBoth (x : Berth) (f : Regs → Regs) : Berth := { x with regs := f x.regs, ckpt := x.ckpt.map f }

/-- A queue of a berth changed, in its checkpoint too. -/
def State.onQueue (s : State) (c b q : Nat) (f : Queue → Queue) : State :=
  s.onBerth c b fun x => x.onBoth fun r => r.putQ q (f (r.queue q))

/-- A request of a berth answered. DEDUCED (log 9). -/
def State.answer (s : State) (c b slot : Nat) (f : Asked → Asked) : State :=
  s.onBerth c b fun x => { x with asked := x.asked.map fun (a : Asked) => if a.slot = slot then f a else a }

/-- A berth still awaits the answer to a request of a slot. -/
def State.asks (s : State) (c b slot id : Nat) : Bool :=
  (s.berth c b).asked.any fun a => a.slot == slot && a.id == id && a.answer.isNone

/-! ## ENQ_RESERVATION_ARRIVE (R353) -/

/-- The target reserves a place, or replies with a quota breach; the reply carries the request's mark (R226). -/
def State.enqArrive (s : State) (id : Nat) : State :=
  match Map.get? s.messages id with
  | some (.enq c b slot cl tq units launch) =>
    let s := (s.received id).carryReply (s.marked.contains id) cl (clusterOf c)
    if !s.asks c b slot id then s
    else
      match s.reservePlace cl tq units launch with
      | some s' => s'.answer c b slot fun a => { a with id := s.stamp, answer := some 0 }
      | none => s.answer c b slot fun a => { a with answer := some 1 }
  | _ => s
def execEnqReservationArrive (id : Nat) (s : State) : Host.Outcome State Fault Refusal := .next (s.enqArrive id)

/-! ## Splices (R96 to R100) -/

/-- The consumer that a target word names (R96). -/
def spliceCore (w : Word) : Nat := bits w.toNat 0 11
def spliceBerth (w : Word) : Nat := bits w.toNat 11 3
def spliceQueue (w : Word) : Nat := bits w.toNat 14 2

/-- The reason for which a consumer refuses a splice, 0 for none (R96, R272). A local queue that QCFG has not configured counts as one
of entries of 128 bytes. DESIGN CHOICE (log 85). -/
def State.spliceReason (s : State) (c b q : Nat) (target : Word) : Nat :=
  let x := s.berth (spliceCore target) (spliceBerth target)
  let mine := (s.berth c b).regs.queue q
  let k := x.regs.queue (spliceQueue target)
  if x.task.isNone || x.slot != (s.berth c b).slot || x.status == .evicting then 4
  else if k.splice ≠ .openQ ∨ k.subscribed then 5
  else if k.esize ≠ mine.esize then 3
  else 0

/-- QSPL_REQUEST_ARRIVE (R96). A request that its bundle has given up takes no effect; the reply carries its mark (R226). -/
def State.qsplRequest (s : State) (id : Nat) : State :=
  match Map.get? s.messages id with
  | some (.qspl c b slot q target) =>
    let asked := s.asks c b slot id
    let hit := s.marked.contains id
    let s := s.received id
    let r := if asked then s.spliceReason c b q target else 4
    let dc := spliceCore target
    let db := spliceBerth target
    let dq := spliceQueue target
    let k := (s.berth dc db).regs.queue dq
    let s := if r = 0 then s.onQueue dc db dq fun x =>
        { x with splice := .fed, peerCore := c, peerBerth := b, peerQueue := q } else s
    (s.send (.qsplReply c b slot q r target k.cfg k.tail k.head id)).setMark s.stamp hit
  | _ => s
def execQsplRequestArrive (id : Nat) (s : State) : Host.Outcome State Fault Refusal := .next (s.qsplRequest id)

/-- A queue that a producer fed is OPEN again. -/
def State.unfeed (s : State) (target : Word) (c b q : Nat) : State :=
  s.onQueue (spliceCore target) (spliceBerth target) (spliceQueue target) fun x =>
    if x.splice = .fed ∧ x.peerCore = c ∧ x.peerBerth = b ∧ x.peerQueue = q then { x with splice := .openQ } else x

/-- QSPL_REPLY_ARRIVE (R97). Where the bundle has given its request up, the consumer's queue is OPEN again. -/
def State.qsplReply (s : State) (id : Nat) : State :=
  match Map.get? s.messages id with
  | some (.qsplReply c b slot q r target cfg tail head request) =>
    let asked := s.asks c b slot request
    let s := if s.marked.contains id then s.count (clusterOf c) 6 else s
    let s := (s.received id).answer c b slot fun a => if asked then { a with answer := some r } else a
    if !asked then (if r = 0 then s.unfeed target c b q else s)
    else
      s.onQueue c b q fun x =>
        if r = 0 then
          { x with splice := .spliced, peerCore := spliceCore target, peerBerth := spliceBerth target,
                   peerQueue := spliceQueue target, peerCfg := cfg, remoteTail := tail, mirrored := head }
        else { x with splice := .localQ }
  | _ => s
def execQsplReplyArrive (id : Nat) (s : State) : Host.Outcome State Fault Refusal := .next (s.qsplReply id)

/-- A block of scratchpad changed. -/
def State.onBlock (s : State) (cl addr : Nat) (f : Block → Block) : State :=
  s.setCluster cl ((s.cluster cl).setBlock addr (f ((s.cluster cl).block addr)))

/-- A consumer's launch owns the banks of a range of its cluster (R48). -/
def State.ownsRange (s : State) (c b addr n : Nat) : Bool :=
  ((s.cluster (clusterOf c)).rangeError (s.berth c b).slot spadMode addr n).isNone

/-- RESERVATION_NOTICE_ARRIVE (R92, R98, R99): the consumer's tail advances, and the slot, in a bank that is still the launch's, is
absent. -/
def State.noticeArrive (s : State) (id : Nat) : State :=
  match Map.get? s.messages id with
  | some (.notice c b q) =>
    let s := s.received id
    let k := (s.berth c b).regs.queue q
    let clear (x : Block) : Block := { x with present := false }
    let s := if s.shadow c b || !s.ownsRange c b (k.slotAddr k.tail) k.esize then s
      else s.onBlock (clusterOf c) (k.slotAddr k.tail) clear
    s.onQueue c b q fun x => { x with tail := x.tail + 1 }
  | _ => s
def execReservationNoticeArrive (id : Nat) (s : State) : Host.Outcome State Fault Refusal := .next (s.noticeArrive id)

/-- SPLICED_DATA_ARRIVE (R98, R99): the entry is written at the consumer and becomes present; a bank that the launch has released
meanwhile takes nothing (R48; DEDUCED, log 95). The write stands on the producer's QWRITE path. -/
def State.dataArrive (s : State) (id : Nat) : State :=
  match Map.get? s.messages id with
  | some (.data c b q n bytes sideband unit) =>
    let s := s.received id
    let k := (s.berth c b).regs.queue q
    let cl := clusterOf c
    let a := k.slotAddr (.ofNat 16 n)
    if s.shadow c b || !s.ownsRange c b a k.esize then s else
    let s := s.onSpad cl fun m => m.write a k.esize bytes
    let clean (x : Block) : Block := { x with mark := false }
    let s := s.setCluster cl ((s.cluster cl).onBlocks a (k.esize / 128) clean)
    let s := s.onBlock cl a fun x => { x with sideband := sideband, unit := unit, present := true }
    let (s, ts) := s.stampSpad cl true (s.ptsOf k.peerCore k.peerBerth pQwrite) a k.esize
    (s.raisePts k.peerCore k.peerBerth pQwrite ts).captureAll cl
  | _ => s
def execSplicedDataArrive (id : Nat) (s : State) : Host.Outcome State Fault Refusal := .next (s.dataArrive id)

/-- The larger of two head counters (R98). -/
def laterHead (m h : BitVec 16) : BitVec 16 := if (h - m).toNat < 2 ^ 15 then h else m

/-- MIRRORED_HEAD_ARRIVE (R98). -/
def State.headArrive (s : State) (id : Nat) : State :=
  match Map.get? s.messages id with
  | some (.head c b q h) =>
    (s.received id).onQueue c b q fun x =>
      if x.splice = .spliced ∨ x.splice = .unsplicing then { x with mirrored := laterHead x.mirrored h } else x
  | _ => s
def execMirroredHeadArrive (id : Nat) (s : State) : Host.Outcome State Fault Refusal := .next (s.headArrive id)

/-- A spliced entry, or its notice, is on its way to a queue. -/
def Msg.feeds (m : Msg) (c b q : Nat) : Bool :=
  match m with
  | .notice x y z => x == c && y == b && z == q
  | .data x y z .. => x == c && y == b && z == q
  | _ => false

/-- A producer still holds an entry that it has reserved at the other end of a queue (R100, R399). -/
def Berth.holdsEntry (x : Berth) (q : Nat) : Bool :=
  x.held.any fun h => match h with
    | .splicedAppend n .. => n == q
    | _ => false

/-- UNSPLICE_ARRIVE (R100): once every reserved entry is written, both ends return. -/
def State.unspliceArrive (s : State) (id : Nat) : State :=
  match Map.get? s.messages id with
  | some (.unsplice c b q pc pb pq) =>
    if (s.messages.any fun e => e.2.feeds c b q) || (s.berth pc pb).holdsEntry pq then s
    else
      let s := (s.received id).onQueue c b q fun x => { x with splice := .openQ }
      let s := s.onQueue pc pb pq fun x => { x with splice := .localQ }
      s.onBerth pc pb fun x =>
        if x.awaiting = some id then { x with awaiting := none }.settle else x
  | _ => s
def execUnspliceArrive (id : Nat) (s : State) : Host.Outcome State Fault Refusal := .next (s.unspliceArrive id)

/-! ## XLAT_WALK_COMPLETE (R159, R167) -/

/-- A walk ends; the walk of a page that migrates waits. VALID stays as a revocation meanwhile has left it (R161). -/
def State.walkComplete (s : State) (c b h : Nat) : State :=
  match s.walks.find? fun w => w.core == c && w.berth == b && w.handle == h with
  | none => s
  | some w =>
    if (s.walk w.va).hasLeaf && (s.walk w.va).mig then s
    else
      ({ s with walks := s.walks.erase w }.chargeWalk (s.translate w.va)).onBerth c b fun x =>
        { x with regs := x.regs.putH h { s.loadHandle w.va with valid := (vget x.regs.h h Handle.zero).valid } }
def execXlatWalkComplete (core berth handle : Nat) (s : State) : Host.Outcome State Fault Refusal :=
  .next (s.walkComplete core berth handle)

/-! ## CORE accesses -/

/-- TICKET_REQUEST_ARRIVE (R198): the global sequencer up to package scope, the pod sequencer beyond, each on an I/O die.
DESIGN CHOICE (log 52). -/
def State.ticketArrive (s : State) (id : Nat) : State :=
  match Map.get? s.accesses id with
  | none => s
  | some a =>
    if !a.sc || a.ticket.isSome then s
    else
      let (g, p) := s.tickets
      let (n, next) := if a.scope ≤ 5 then (g, (g + 1, p)) else (p, (g, p + 1))
      let s := s.ioTrip (coreSource a.core) pkRequest pkAnswer
      ({ s with tickets := next, accesses := Map.set s.accesses id { a with ticket := some n, resends := 0 } }).later (.accessPerform id)
def execTicketRequestArrive (id : Nat) (s : State) : Host.Outcome State Fault Refusal := .next (s.ticketArrive id)

/-- The new value of ATOM (R325) and its flags. -/
def atomResult (fn n old b cmp : Nat) : Nat × BitVec 7 :=
  let w := 8 * n
  match fn with
  | 0 => ((old + b) % 2 ^ w, 0)
  | 1 => (old &&& b, 0)
  | 2 => (old ||| b, 0)
  | 3 => (old ^^^ b, 0)
  | 4 => (if signed old w ≤ signed b w then old else b, 0)
  | 5 => (if signed old w ≤ signed b w then b else old, 0)
  | 6 => (min old b, 0)
  | 7 => (max old b, 0)
  | 8 => (b, 0)
  | 9 => (if old = cmp then b else old, 0)
  | _ => f32.add .rn (f32.value old) (f32.value b)

/-- The overflow bit of an a64 line (R138). -/
def State.ovfBit (s : State) (line : Nat) : Bool :=
  match Map.get? s.ovf line with
  | some b => b
  | none => Config.powerOnOvf line

/-- Where the ATOM.sc operations of a sequencer are performed in ticket order: at the home slice, or of an MS line at its stack's
memory-side unit (R166, R198). -/
def State.orderUnit (s : State) (a : Access) : Bool × Nat := (a.ms, if a.ms then stackOfAddr a.pa else s.homeSlice a.pa)

/-- An access's turn has come: the accesses of one berth are performed in program order, and the ATOM.sc operations of one
sequencer at one home slice or memory-side unit in ticket order (R166, R191, R198). -/
def State.accessTurn (s : State) (id : Nat) (a : Access) : Bool :=
  s.accesses.all fun e =>
    !(decide (e.1 < id) && e.2.core == a.core && e.2.berth == a.berth && !e.2.done) &&
      !(a.sc && e.2.sc && !e.2.done && (decide (e.2.scope ≤ 5) == decide (a.scope ≤ 5)) &&
        s.orderUnit e.2 == s.orderUnit a &&
        (match e.2.ticket, a.ticket with
          | some x, some y => decide (x < y)
          | _, _ => false))

/-- A read served by an L1 copy that may serve it at the berth's clock (R193): its value and timestamp. -/
def State.l1Read (s : State) (a : Access) : Option (Nat × Nat) :=
  match Map.get? (s.cluster (clusterOf a.core)).l1 (a.pa / 64) with
  | some x =>
    let pts := s.ptsOf a.core a.berth pCore
    if pts ≤ x.rts ∧ !a.ms then some (bits x.data (8 * (a.pa % 64)) (8 * a.size), max pts x.wts) else none
  | none => none

/-- A read performed at the home slice; the line's copy in L1 is filled or renewed, except of an MS line, host memory or
another package's line (R148, R166, R193). -/
def State.homeRead (s : State) (a : Access) : State × Nat :=
  let (s, ts) := s.stampMem false a.ms (s.ptsOf a.core a.berth pCore) a.pa a.size
  let s := s.raisePts a.core a.berth pCore ts
  (if a.ms ∨ s.target a.pa ≠ .dram then s else s.fillL1 (clusterOf a.core) (a.pa / 64), s.mem.read a.pa a.size)

/-- A write performed at the home slice, and in a copy held in the cluster's L1. -/
def State.homeWrite (s : State) (a : Access) (v : Nat) (plain : Bool) : State :=
  let (s, ts) := s.stampMem true a.ms (s.ptsOf a.core a.berth pCore) a.pa a.size
  let s := s.raisePts a.core a.berth pCore ts
  let s := if plain then s.putMem a.pa a.size v else { s with mem := s.mem.write a.pa a.size v }
  s.refreshL1 (clusterOf a.core) a.pa a.size

/-- The value that an access returns and its flags, and the state after it. -/
def State.performAccess (s : State) (a : Access) : State × Nat × BitVec 7 :=
  match a.kind with
  | 0 =>
    match s.l1Read a with
    | some (v, ts) => (s.raisePts a.core a.berth pCore ts, v, 0)
    | none => let r := s.homeRead a; (r.1, r.2, 0)
  | 1 => (s.homeWrite a a.data true, 0, 0)
  | _ =>
    if a.fn = 11 then
      let (s', ts) := s.stampMem true a.ms (s.ptsOf a.core a.berth pCore) a.pa 1
      let s' := s'.raisePts a.core a.berth pCore ts
      let s' := if bit a.data 0 then { s' with ovf := Map.set s'.ovf (a.pa / 256) false } else s'
      (s', one (s.ovfBit (a.pa / 256)), 0)
    else
      let old := s.mem.read a.pa a.size
      let (v, fl) := atomResult a.fn a.size old a.data a.cmp
      (s.homeWrite a v false, old, fl)

/-- The request and the reply of an access (R215), and the end to which its request goes: the home slice, or the I/O die (R231,
R232). -/
def Access.request (a : Access) : PacketKind := if a.kind = 1 then pkWrite 1 else pkRequest
def Access.answer (a : Access) : PacketKind := if a.kind = 0 then pkSector else pkAnswer
def State.accessEnd (s : State) (a : Access) : NetEnd :=
  if s.target a.pa = .dram then .quay (s.homeSlice a.pa) else .ioDie
def Access.origin (a : Access) : NetEnd := .quay (clusterOf a.core)

/-- The request of an access leaves its source, and for an MS line goes on to the memory-side unit (R219, R226, R227); of one that is
resent, the window holds it already (R234). -/
def State.sendRequest (s : State) (a : Access) : State × Access :=
  let e := s.accessEnd a
  let a' := { a with remote := true, mark := s.markBit a.request a.origin e, sent := s.packets }
  let s := s.carry a.request a.origin e
  if s.target a.pa = .dram then
    let s := if a.remote then s else s.windowSend (coreSource a.core) (s.homeSlice a.pa)
    (if a.ms then s.dramTrip (a.pa / 256) a.request a.answer else s, a')
  else (s, a')

/-- The window of the access's source for its home slice is full (R227). -/
def State.accessShut (s : State) (a : Access) : Bool :=
  s.target a.pa == .dram && !a.remote && !s.windowOpen (coreSource a.core) (s.homeSlice a.pa)

/-- An access performed: what its reply carries is fixed, and the reply, with the request's mark, is due. -/
def State.complete (s : State) (id : Nat) (a : Access) : State :=
  let mark := a.kind != 1 && s.marksData a.pa
  let (s, v, fl) := s.performAccess a
  ({ s with accesses := Map.set s.accesses id { a with done := true, value := v, marked := mark, flags := fl } }).later
    (.accessReply id a.mark)

/-- A request that will have no reply is outstanding no more. -/
def State.forgetRequest (s : State) (a : Access) : State :=
  if a.remote && s.target a.pa == .dram then s.windowForget (coreSource a.core) (s.homeSlice a.pa) else s

/-- A request that is lost (R232, R234): a read returns marked data, whose bytes are free (log 98), a write or ATOM raises POISON at its berth as an error of an
access already released. -/
def State.loseAccess (s : State) (id : Nat) (a : Access) : State :=
  let s := (s.postQuay (clusterOf a.core) 0x0014 a.launch a.pa PacketClass.req.code).forgetRequest a
  if a.kind = 0 then
    let v := (Config.lostData s.packets).toNat
    ({ s with accesses := Map.set s.accesses id { a with done := true, value := v, marked := true, remote := false } }).later (.accessReply id false)
  else
    let s : State := { s with accesses := Map.erase s.accesses id, sentAt := Map.erase s.sentAt id }
    let s := s.onBerth a.core a.berth fun x => { x with outstanding := x.outstanding.filter fun p => p.req != id }
    s.raiseError a.core a.berth { code := tPoison, slot := 0, timm := 0, info := sub 2 a.pa } true

/-- A REQ packet of the core is on its way to the home slice of an access, whose request does not overtake it (R223). -/
def State.accessBehind (s : State) (a : Access) : Bool :=
  s.target a.pa == .dram && s.requestAhead a.core (s.homeSlice a.pa)

/-- ACCESS_PERFORM (R189, R192): a read that the cluster's L1 may serve sends nothing (R193); any other request waits while its
line's home moves, unless it is sent again (R217), behind earlier requests (R223), or while its window is full, and is lost where no port
reaches its package (R232). -/
def State.accessPerform (s : State) (id : Nat) : State :=
  match Map.get? s.accesses id with
  | none => s
  | some a =>
    if a.done || (a.sc && a.ticket.isNone) || !s.accessTurn id a then s
    else if a.kind == 0 && (s.l1Read a).isSome then s.complete id a
    else if s.unreachable a.pa then s.loseAccess id a
    else if (s.moving a.pa && !a.remote) || s.accessBehind a then s
    else if s.accessShut a then s.windowWait (coreSource a.core) (s.homeSlice a.pa) (.accessPerform id)
    else
      let (s, a) := s.sendRequest a
      s.complete id a

/-- ACCESS_PERFORM of an access sends its request. -/
def State.accessSends (s : State) (id : Nat) (a : Access) : Bool :=
  !a.done && !(a.sc && a.ticket.isNone) && s.accessTurn id a && !(a.kind == 0 && (s.l1Read a).isSome) &&
    !s.unreachable a.pa && !(s.moving a.pa && !a.remote) && !s.accessBehind a && !s.accessShut a
def execAccessPerform (id : Nat) (s : State) : Host.Outcome State Fault Refusal := .next (s.accessPerform id)

/-- The reply of an access reaches its source: it counts for the window of a slice (R226, R227, R236). -/
def State.accessAnswered (s : State) (a : Access) (marked : Bool) : State :=
  if !a.remote then s
  else
    let s := s.carry a.answer (s.accessEnd a) a.origin
    if s.target a.pa = .dram then s.windowReply (coreSource a.core) (s.homeSlice a.pa) a.sent marked
    else if marked then s.count (clusterOf a.core) 6
    else s

/-- ACCESS_REPLY (R145, R163, R227, R301): the result is written where the berth still awaits it; a marked one raises
POISON. -/
def State.accessReply (s : State) (id : Nat) (marked : Bool) : State :=
  match Map.get? s.accesses id with
  | none => s
  | some a =>
    if !a.done then s
    else
      let s := ({ s with accesses := Map.erase s.accesses id, sentAt := Map.erase s.sentAt id }).accessAnswered a marked
      if !((s.berth a.core a.berth).outstanding.any fun p => p.req == id) then s
      else
        let s := s.onBerth a.core a.berth fun x => { x with
          regs := x.regs.putG a.dest (extendBytes a.signed a.size a.value)
          outstanding := x.outstanding.filter fun p => p.req != id }
        let s := s.mergeFlags a.core a.berth a.flags
        if a.marked then
          s.raiseError a.core a.berth { code := tPoison, slot := a.slot, timm := 0, info := a.pa / 4096 % 16 * 16 + a.handle } false
        else s
def execAccessReply (id : Nat) (marked : Bool) (s : State) : Host.Outcome State Fault Refusal :=
  .next (s.accessReply id marked)

/-! ## Migration (R167) -/

/-- The frame and the bytes of the page at an address. -/
def Walk.page (w : Walk) : Nat × Nat := (bits w.leaf 16 36, if w.large then 2 ^ 25 else 2 ^ 16)

/-- The lines of a physical range flushed from their slices (R149, R218). -/
def State.flushLines (s : State) (pa n : Nat) : State :=
  ((s.lines.map Prod.fst).filter fun i => decide (pa / 256 ≤ i) && decide (i < (pa + n) / 256)).foldl State.dropLine s

/-- MIG set in a leaf, and the page's lines flushed (R167). -/
def State.setMig (s : State) (va : Nat) : State :=
  let w := s.walk va
  let (f, n) := w.page
  let s := s.flushLines (f * 2 ^ 16) n
  { s with mem := s.mem.write w.leafAt 8 (setBits w.leaf 9 1 1) }

/-- MIGRATION_START (R167): a migration of the page at an address to a frame is taken up, and MIG is set once no engine is within a
granule of the page (R162). -/
def State.migrationStart (s : State) (va frame : Nat) : State :=
  let w := s.walk va
  let first := va / w.page.2 * w.page.2
  if w.fault ≠ 0 ∨ w.mig then s
  else
    let others := s.migrations.filter fun m => m.va != first
    let m : Migration := { va := first, frame := frame % 2 ^ 36, started := s.pageQuiet va, parked := [] }
    let s : State := { s with migrations := others ++ [m] }
    if m.started then s.setMig va else s
def execMigrationStart (va frame : Word) (s : State) : Host.Outcome State Fault Refusal :=
  .next (s.migrationStart va.toNat frame.toNat)

/-- The logical times of a page's lines when it stands in its new frame: not before any access to the old one (R192, R218). -/
def State.carryTimes (s : State) (src dst n : Nat) : State :=
  let lines := List.range (n / 256)
  let slice (pa i : Nat) : Nat := s.homeSlice (pa + 256 * i)
  let t := lines.foldl (fun t i => max t (Map.getD s.floors (slice src i) 0)) 0
  { s with
    floors := ((lines.map (slice dst)).dedup).foldl (fun (m : Map Nat) h => Map.set m h (max (Map.getD m h 0) t)) s.floors
    uncached := lines.foldl (fun (m : Map (Nat × Nat)) i =>
      match Map.get? s.uncached (src / 256 + i) with
      | some x =>
        let y := Map.getD m (dst / 256 + i) (0, 0)
        Map.set m (dst / 256 + i) (max x.1 y.1, max x.2 y.2)
      | none => m) s.uncached }

/-- The page's bytes, overflow bits and poison bits copied to a new frame, whose lines L2 and L1 do not hold. -/
def State.copyPage (s : State) (src dst n : Nat) : State :=
  let s := ((s.flushLines src n).flushLines dst n).carryTimes src dst n
  let inside (b a : Nat) : Bool := decide (b ≤ a) && decide (a < b + n)
  let bad := (List.range (n / 4096)).map fun g => s.marksData (src + 4096 * g)
  let mem := (s.mem.filter fun e => inside src e.1).foldl (fun (m : Memory) e => m.put (e.1 - src + dst) e.2)
    (s.mem.filter fun e => !(inside dst e.1))
  let ovf := (List.range (n / 256)).foldl (fun (m : Map Bool) i =>
    Map.set m (dst / 256 + i) (s.ovfBit (src / 256 + i))) s.ovf
  let s := { s with mem := mem, ovf := ovf }
  (List.range (n / 4096)).foldl (fun (s : State) g =>
    if s.target (dst + 4096 * g) = .dram then s.putPoison (dst + 4096 * g) (bad.getD g false)
    else s.taint (dst + 4096 * g) (bad.getD g false)) s

/-- A physical address in an old frame of n bytes, in its place in the new one. -/
def moveAddr (src dst n a : Nat) : Nat := if src ≤ a ∧ a < src + n then a - src + dst else a

/-- What will still be written in an old frame goes to the new one: stores that segments hold, residuals, and accumulates on their way
(R167). -/
def State.moveFrame (s : State) (src dst n : Nat) : State :=
  let go := moveAddr src dst n
  let held (h : Held) : Held := match h with
    | .store pa k v ms => .store (go pa) k v ms
    | h => h
  let berth (b : Berth) : Berth := { b with held := b.held.map held }
  let s : State := { s with
    cores := s.cores.map fun (e : Nat × Core) => (e.1, { e.2 with berths := e.2.berths.map berth })
    messages := s.messages.map fun (e : Nat × Msg) => match e.2 with
      | .acc a => (e.1, .acc { a with line := go a.line })
      | _ => e }
  s.launches.foldl (fun (s : State) l =>
    ((s.cores.map Prod.fst).filter l.2.hasTables).foldl (fun (s : State) c =>
      (List.range 8).foldl (fun (s : State) b =>
        (List.range 16).foldl (fun (s : State) i =>
          let r := s.residual l.2 c b i
          if r.state = 0 ∨ go (256 * r.line) = 256 * r.line then s
          else s.putResidual l.2 c b i { r with line := go (256 * r.line) / 256 }) s) s) s) s

/-- No CORE access to a physical range is still to be performed, and no engine is within a granule of the page. -/
def State.rangeQuiet (s : State) (va pa n : Nat) : Bool :=
  (s.accesses.all fun e => e.2.done || decide (e.2.pa + e.2.size ≤ pa) || decide (pa + n ≤ e.2.pa)) && s.pageQuiet va

/-- What waited for a page to have migrated is due again. -/
def State.afterMigration (s : State) : State :=
  let s := s.walks.foldl (fun (s : State) x => s.later (.xlatWalkComplete x.core x.berth x.handle)) s
  let s := s.launches.foldl (fun (s : State) e =>
    e.2.toLoad.foldl (fun (s : State) x => s.later (.programLoad e.1 x.1 x.2)) s) s
  if s.fifo.isEmpty then s else s.later .launchAdmission

/-- MIGRATION_SWITCHOVER (R167): the copy is made, the leaf names the new frame, the page is revoked, the parked writes are
applied in order, and MIG is cleared. Local writes go to the old frame until then. DEDUCED (log 53). -/
def State.migrationSwitchover (s : State) (va : Nat) : State :=
  let w := s.walk va
  let (f, n) := w.page
  match s.migrations.find? fun m => m.va == va / n * n with
  | none => s
  | some m =>
    if !w.hasLeaf || !w.mig || !s.rangeQuiet va (f * 2 ^ 16) n then s
    else
      let s := (s.copyPage (f * 2 ^ 16) (m.frame * 2 ^ 16) n).moveFrame (f * 2 ^ 16) (m.frame * 2 ^ 16) n
      let s : State := { s with mem := s.mem.write w.leafAt 8 (setBits w.leaf 16 36 m.frame) }
      let s := s.revoke va
      let s := m.parked.foldl (fun (s : State) p => s.putMem (m.frame * 2 ^ 16 + p.1 % n) p.2.1 p.2.2) s
      let s : State := { s with
        mem := s.mem.write w.leafAt 8 (setBits (s.walk va).leaf 9 1 0)
        migrations := s.migrations.erase m }
      s.afterMigration
def execMigrationSwitchover (va : Word) (s : State) : Host.Outcome State Fault Refusal :=
  .next (s.migrationSwitchover va.toNat)

/-- The migration whose old frame holds a physical address, and the address's place in the page. -/
def State.migrationAt (s : State) (pa : Nat) : Option (Migration × Nat) :=
  s.migrations.findSome? fun m =>
    let (f, n) := (s.walk m.va).page
    if m.started ∧ f * 2 ^ 16 ≤ pa ∧ pa < f * 2 ^ 16 + n then some (m, pa - f * 2 ^ 16) else none

/-- MIGRATION_WRITE_RETRY (R167): a refused write of another package is resent: parked while there is room, performed once no
migration holds its page. DESIGN CHOICE (log 54). -/
def State.migrationRetry (s : State) (id : Nat) : State :=
  match Map.get? s.refusedWrites id with
  | none => s
  | some (pa, n, v) =>
    match s.migrationAt pa with
    | none => ({ s with refusedWrites := Map.erase s.refusedWrites id }).putMem pa n v
    | some (m, off) =>
      if 64 ≤ m.parked.length then s
      else
        { s with
          refusedWrites := Map.erase s.refusedWrites id
          migrations := s.migrations.map fun (x : Migration) =>
            if x = m then { x with parked := x.parked ++ [(off, n, v)] } else x }
def execMigrationWriteRetry (id : Nat) (s : State) : Host.Outcome State Fault Refusal := .next (s.migrationRetry id)

end Sys2Proof.Machine
end

