-- ==== Sys2Proof/Machine/Accum.lean ====
section
/-! DEFINITION. Accumulates at their home slices and residual tables (R138, R201 to R208). -/

namespace Sys2Proof.Machine

/-! ## At the home slice -/

/-- Whether an accumulate is in flight on a line: a normal one from its acceptance, a forced one from its arrival, until it
is applied (R201). -/
def Addend.flies (a : Addend) (l : Nat) : Bool := a.line == l && a.decided && (a.forced || a.accepted) && !a.applied
def Msg.inFlight (m : Msg) (l : Nat) : Bool :=
  match m with
  | .acc a => a.flies l
  | _ => false

/-- A normal accumulate in flight on a line. -/
def Msg.normalInFlight (m : Msg) (l : Nat) : Bool :=
  match m with
  | .acc a => !a.forced && a.flies l
  | _ => false

/-- The number of accumulates in flight on a line. -/
def State.inFlight (s : State) (line : Nat) : Nat := (s.messages.filter fun e => e.2.inFlight line).length

/-- The window of 256 network cycles, 320 core cycles, in which the device stands (R5, R201). -/
def State.accWindow (s : State) : Nat := s.now / 320

/-- Normal accumulates that a slice has accepted from a berth in the present window: recorded as window · 2^20 + count. -/
def accSender (c b slice : Nat) : Nat := (8 * c + b) * 128 + slice
def State.acceptedNow (s : State) (c b slice : Nat) : Nat :=
  let x := Map.getD s.accepted (accSender c b slice) 0
  if x / 2 ^ 20 = s.accWindow then x % 2 ^ 20 else 0

/-- The slice of this package at which an accumulate is performed, or 96 for the home slices of other packages (R228). -/
def State.accSlice (s : State) (line : Nat) : Nat := if s.target line = .dram then s.homeSlice line else 96

/-- A counter of a slice of this package advanced (R236). -/
def State.countSlice (s : State) (slice i : Nat) : State := if slice < 96 then s.count slice i else s

/-- The addends of an accumulate applied to its line, lane by lane with saturation; a marked lane or one that saturates sets
the line's overflow bit (R137, R138). -/
def State.applyAddends (s : State) (line addends marks : Nat) : State :=
  let (v, sat) := addA64 (s.mem.read line 256) addends
  let s : State := { s with mem := s.mem.write line 256 v }
  if sat ≠ 0 ∨ marks ≠ 0 then { s with ovf := Map.set s.ovf (line / 256) true } else s

/-- An accumulate ordered as a write on the ACCUM path, from the clock that it carries (R201). -/
def State.stampAcc (s : State) (a : Addend) : State :=
  let (s, ts) := s.stampMem true false a.pts a.line 256
  match a.cmd.bind fun i => (Map.get? s.commands i).map fun k => (i, k) with
  | some (i, k) => s.setCommand i { k with maxTs := max k.maxTs ts }
  | none => s.raisePts a.core a.berth pAccum ts

/-- An accumulate performed on its line. -/
def State.applyAcc (s : State) (a : Addend) : State := (s.stampAcc a).applyAddends a.line a.addends a.marks

/-- An accumulate changed. -/
def State.setMsg (s : State) (id : Nat) (m : Msg) : State := { s with messages := Map.set s.messages id m }

/-- An accumulate joins those that wait at a slice. -/
def State.queueAcc (s : State) (slice id : Nat) : State :=
  { s with forced := Map.set s.forced slice (Map.getD s.forced slice [] ++ [id]) }.later (.forcedAccumulateApply slice)

/-- A normal accumulate that a slice accepts. It is applied at once, or behind the accumulates that wait there (R207), and stays in
flight until the application has finished. DEDUCED (log 49). -/
def State.acceptAcc (s : State) (id : Nat) (a : Addend) : State :=
  let slice := s.accSlice a.line
  let n := s.acceptedNow a.core a.berth slice
  let s : State := { s with accepted := Map.set s.accepted (accSender a.core a.berth slice) (s.accWindow * 2 ^ 20 + n + 1) }
  let s := (s.countSlice slice 7).setMsg id (.acc { a with decided := true, accepted := true, applied := false })
  let s := if Map.getD s.forced slice [] = [] then (s.applyAcc a).later (.acchApplyDone id) else s.queueAcc slice id
  s.later (.acchReply id)

/-- A slice refuses a normal accumulate (R201); that of another package by a rule that is not this device's to follow. -/
def State.refuses (s : State) (a : Addend) : Bool :=
  if s.target a.line = .dram then
    decide (2 ≤ s.inFlight a.line) || decide (a.quota ≤ s.acceptedNow a.core a.berth (s.accSlice a.line))
  else !Config.farAccepts a.sent

/-- An accumulate that has waited at its source for its line's home is sent once the home has moved (R217). -/
def State.sendKept (s : State) (id : Nat) (a : Addend) : State :=
  if s.moving a.line then s
  else
    let (s, a) := s.injectAddend a
    (s.setMsg id (.acc a)).later (.acchArrive id)

/-- ACCH_ARRIVE (R201, R207): the slice accepts or refuses a normal accumulate; a forced one joins the slice's queue. One to a package
that no port reaches does not arrive, and is resent (R232, R234). -/
def State.acchArrive (s : State) (id : Nat) : State :=
  match Map.get? s.messages id with
  | some (.acc a) =>
    let slice := s.accSlice a.line
    if a.decided then s
    else if a.kept then s.sendKept id a
    else if s.unreachable a.line then { s with sentAt := Map.set s.sentAt id s.now }
    else if a.forced then (s.setMsg id (.acc { a with decided := true })).queueAcc slice id
    else if s.refuses a then
      ((s.countSlice slice 8).setMsg id (.acc { a with decided := true, accepted := false })).later (.acchReply id)
    else s.acceptAcc id a
  | _ => s
def execAcchArrive (id : Nat) (s : State) : Host.Outcome State Fault Refusal := .next (s.acchArrive id)

/-- ACCH_APPLY_DONE (R201). -/
def State.acchApplyDone (s : State) (id : Nat) : State :=
  match Map.get? s.messages id with
  | some (.acc a) =>
    let slice := s.accSlice a.line
    if a.forced || !a.accepted || a.applied || (Map.getD s.forced slice []).contains id then s
    else
      let s := if a.replied then s.received id else s.setMsg id (.acc { a with applied := true })
      s.later (.forcedAccumulateApply slice)
  | _ => s
def execAcchApplyDone (id : Nat) (s : State) : Host.Outcome State Fault Refusal := .next (s.acchApplyDone id)

/-! ## At the sender -/

/-- A FLUSHR of a berth has issued and is not yet performed (R205). -/
def State.flushing (s : State) (c b : Nat) : Bool :=
  s.commands.any fun e => e.2.core == c && e.2.berth == b && e.2.op == 0xC && !e.2.held

/-- An entry in HELD is to be forced (R205): its age, a FLUSHR, the end or the eviction of the berth's task. -/
def State.mustForce (s : State) (slot c b : Nat) (r : Residual) : Bool :=
  let x := s.berth c b
  r.state == 1 && (decide (4096 ≤ r.age) || s.flushing c b ||
    (x.slot == slot && (x.status == .draining || x.status == .evicting)))

/-- A value sent in the forced class (R205). -/
def State.sendForced (s : State) (slot c b line value mark : Nat) (entry : Option Nat) : State :=
  s.sendAddend
    { core := c, berth := b, slot := slot, cmd := none, line := line, addends := value, marks := mark, forced := true,
      entry := entry, quota := 0, pts := s.ptsOf c b pAccum, decided := false, accepted := false, applied := false,
      replied := false, sent := 0, mark := false, kept := false }

/-- An entry of a residual table written back, its forcing due where it is to be forced at once (R205). Where the table's bank is
gone, what the entry would hold is sent in the forced class, for every refused addend is delivered (R61, log 87). -/
def State.settle (s : State) (slot : Nat) (l : Launch) (c b i : Nat) (r : Residual) : State :=
  if !s.tableMine l c b then
    (if r.value = 0 ∧ r.mark = 0 then s else s.sendForced slot c b (256 * r.line) r.value r.mark none)
  else
    let s := s.putResidual l c b i r
    if s.mustForce slot c b r then s.later (.residualAgeForce c b i) else s

/-- RESIDUAL_AGE_FORCE (R205): an entry in HELD that is to be forced becomes FORCED, its value on its way. Every admitted
launch has a table for the berth. -/
def State.forceEntry (s : State) (c b i : Nat) : State :=
  s.launches.foldl (fun (t : State) e =>
    let r := t.residual e.2 c b i
    if e.2.hasTables c && t.mustForce e.1 c b r then
      (t.putResidual e.2 c b i { r with state := 3, value := 0, mark := 0 }).sendForced e.1 c b (256 * r.line) r.value r.mark
        (some i)
    else t) s
def execResidualAgeForce (core berth entry : Nat) (s : State) : Host.Outcome State Fault Refusal :=
  .next (s.forceEntry core berth entry)

/-- The state of an entry whose send is settled: FREE when it holds nothing (R204). -/
def Residual.rest (r : Residual) : Residual :=
  if r.value = 0 ∧ r.mark = 0 then { r with state := 0, age := 0 } else { r with state := 1 }

/-- Addends added into an entry (R204). -/
def Residual.add (r : Residual) (addends marks : Nat) : Residual :=
  let (v, sat) := addA64 r.value addends
  { r with value := v, mark := r.mark ||| marks ||| sat }

/-- The HELD entry of greatest age, lowest index first. -/
def State.oldestHeld (s : State) (l : Launch) (c b : Nat) : Option Nat :=
  let held := (List.range 16).filter fun i => s.resState l c b i == 1
  held.find? fun i => held.all fun j => decide ((s.residual l c b j).age ≤ (s.residual l c b i).age)

/-- A refused addend placed in the residual table, or sent in the forced class (R204). -/
def State.placeRefused (s : State) (slot : Nat) (l : Launch) (c b line addends marks : Nat) : State :=
  let fresh : Residual := { line := line / 256, age := 0, state := 1, mark := marks, value := addends }
  match s.findResidual l c b line (fun x => x != 0) with
  | some i => s.settle slot l c b i ((s.residual l c b i).add addends marks)
  | none =>
    match (List.range 16).find? fun i => s.resState l c b i == 0 with
    | some i => s.settle slot l c b i fresh
    | none =>
      match s.oldestHeld l c b with
      | some i =>
        let r := s.residual l c b i
        (s.sendForced slot c b (256 * r.line) r.value r.mark none).settle slot l c b i fresh
      | none => s.sendForced slot c b line addends marks none

/-- A refusal counted by the sender's berth while its task is there (R202). DEDUCED (log 48). -/
def State.countRefusal (s : State) (c b : Nat) (cmd : Option Nat) : State :=
  match cmd.bind fun i => Map.get? s.commands i with
  | some k =>
    if ((s.berth c b).task.map Task.uid) = some k.task then
      s.onBerth c b fun x => x.onBoth fun r =>
        { r with refused := if r.refused = BitVec.allOnes 16 then r.refused else r.refused + 1 }
    else s
  | none => s

/-- The command of an accumulate is performed (R189). -/
def State.acchPerformed (s : State) (cmd : Option Nat) : State :=
  match cmd.bind fun i => (Map.get? s.commands i).map fun k => (i, k) with
  | some (i, k) => (s.setCommand i { k with done := 1 }).later (.engineCommandComplete i)
  | none => s

/-- FLUSHR commands of a berth look at its table again. -/
def State.nudgeFlush (s : State) (c b : Nat) : State :=
  s.commands.foldl (fun (t : State) e =>
    if e.2.core = c ∧ e.2.berth = b ∧ e.2.op = 0xC then t.later (.engineCommandComplete e.1) else t) s

/-- The reply of a normal accumulate reaches its source, a refusal counting as one (R215, R226, R227). -/
def State.accAnswered (s : State) (a : Addend) : State :=
  let s := s.carry pkAnswer (s.accEnd a.line) (.quay (clusterOf a.core))
  if s.target a.line = .dram then s.windowReply (coreSource a.core) (s.homeSlice a.line) a.sent a.mark
  else if a.mark then s.count (clusterOf a.core) 6
  else s

/-- ACCH_REPLY (R204): the residual table and SR.ACCQ.REFUSED take the outcome. -/
def State.acchReply (s : State) (id : Nat) : State :=
  match Map.get? s.messages id with
  | some (.acc a) =>
    if a.forced || !a.decided || a.replied then s
    else
      let s := s.accAnswered a
      let s := if !a.accepted || a.applied then s.received id else s.setMsg id (.acc { a with replied := true })
      let s := if a.accepted then s else s.countRefusal a.core a.berth a.cmd
      let s := match s.launch a.slot, a.entry with
        | some l, some i =>
          let x := { s.residual l a.core a.berth i with line := a.line / 256 }
          s.settle a.slot l a.core a.berth i (if a.accepted then x.rest else { x.add a.addends a.marks with state := 1 })
        | some l, none => if a.accepted then s else s.placeRefused a.slot l a.core a.berth a.line a.addends a.marks
        | none, _ => s
      (s.acchPerformed a.cmd).nudgeFlush a.core a.berth
  | _ => s
def execAcchReply (id : Nat) (s : State) : Host.Outcome State Fault Refusal := .next (s.acchReply id)

/-- The accumulate at the head of a slice's queue leaves it; the next is looked at. -/
def State.popForced (s : State) (slice : Nat) : State :=
  match (Map.getD s.forced slice []).drop 1 with
  | [] => { s with forced := Map.erase s.forced slice }
  | l => { s with forced := Map.set s.forced slice l }.later (.forcedAccumulateApply slice)

/-- A forced accumulate applied: its sender's entry is settled, and the send is over (R204, R205). -/
def State.forcedDone (s : State) (slice id : Nat) (a : Addend) : State :=
  let s := ((s.applyAcc a).countSlice slice 9).received id
  let s := match s.launch a.slot, a.entry with
    | some l, some i => s.settle a.slot l a.core a.berth i (s.residual l a.core a.berth i).rest
    | _, _ => s
  s.nudgeFlush a.core a.berth

/-- FORCED_ACCUMULATE_APPLY (R204, R205, R207): of the accumulates that wait at a slice the first to arrive is applied: a forced one
once no normal one that came before it is in flight on its line, a normal one behind the forced ones that it found waiting. -/
def State.forcedApply (s : State) (slice : Nat) : State :=
  let l := Map.getD s.forced slice []
  match l with
  | [] => s
  | id :: _ =>
    match Map.get? s.messages id with
    | some (.acc a) =>
      if !a.forced then ((s.popForced slice).applyAcc a).later (.acchApplyDone id)
      else if s.messages.any fun x => x.2.normalInFlight a.line && !l.contains x.1 then s
      else (s.popForced slice).forcedDone slice id a
    | _ => s.popForced slice
def execForcedAccumulateApply (slice : Nat) (s : State) : Host.Outcome State Fault Refusal := .next (s.forcedApply slice)

/-- The AGE of every entry in use of a core's tables advances by one core cycle (R203, R205), and those that are to be forced
are due. -/
def State.ageResiduals (s : State) (c : Nat) : State :=
  s.launches.foldl (fun (t : State) e =>
    if !e.2.hasTables c then t
    else
      (List.range 8).foldl (fun (t : State) b =>
        (List.range 16).foldl (fun (t : State) i =>
          if t.resState e.2 c b i = 0 then t
          else
            let r := t.residual e.2 c b i
            t.settle e.1 e.2 c b i { r with age := min (2 ^ 32 - 1) (r.age + 1) }) t) t) s

end Sys2Proof.Machine
end

