-- ==== Sys2Proof/Machine/Alu.lean ====
section
/-! DEFINITION. Scalar arithmetic and logic (R322, R330, R336, R351, R384, R393 to R397, R402, R403, R410,
R413, R416, R419, R428, R441): results wrap modulo 2^64 and no flag is raised. -/

namespace Sys2Proof.Machine

/-- An operation of two scalar sources under a slot predicate (R322). -/
def alu3 (f : SR3) (lat : Option Nat) (op : Word → Word → Word) : OpSem :=
  .plain (fun s => s.predIs f.p f.n) [rK f.p, rG f.a, rG f.b] [(rG f.d, lat)]
    (fun s => s.putG f.d (op (s.srcG f.a) (s.srcG f.b)))

/-- A division: a divisor of zero traps DIVZERO (R351, R410). -/
def divOp (f : SR3) (op : Word → Word → Word) : OpSem :=
  { alu3 f none op with check := fun s => [need (s.srcG f.b != 0) (s.trap tDivzero 0)] }

/-- An operation of one scalar source (R322). -/
def alu2 (f : SR2) (op : Word → Word) : OpSem :=
  .plain (fun s => s.predIs f.p f.n) [rK f.p, rG f.a] [(rG f.d, some 1)]
    (fun s => s.putG f.d (op (s.srcG f.a)))

/-- An operation of a scalar source and an immediate (R322); SI has no negation of its predicate (R292). -/
def aluI (f : SI) (lat : Nat) (imm : Word) (op : Word → Word → Word) : OpSem :=
  .plain (fun s => s.predIs f.p 0) [rK f.p, rG f.a] [(rG f.d, some lat)]
    (fun s => s.putG f.d (op (s.srcG f.a) imm))

/-- A shift by an immediate (R416). -/
def shiftI (f : SIsh) (op : Word → Nat → Word) : OpSem :=
  .plain (fun s => s.predIs f.p 0) [rK f.p, rG f.a] [(rG f.d, some 1)]
    (fun s => s.putG f.d (op (s.srcG f.a) f.c.toNat))

/-- A constant written under no slot predicate; MOVH20 and MOVH40 read their destination (R393). -/
def movOp (f : SW) (readsOld : Bool) (op : Word → Word) : OpSem :=
  .plain (fun _ => true) (if readsOld then [rG f.d] else []) [(rG f.d, some 1)]
    (fun s => s.putG f.d (op (s.srcG f.d)))

/-- Bits [127:64] of a product (R395). -/
def mulHigh (p : Int) : Word := .ofInt 64 (p / 2 ^ 64)

/-- The number of leading zero bits (R322) and of set bits (R403). -/
def clz64 (a : Word) : Word := if a = 0 then 64 else .ofNat 64 (63 - Nat.log2 a.toNat)
def popc64 (a : Word) : Word := .ofNat 64 ((List.range 64).countP fun i => a.getLsbD i)

/-- The least significant bit and the width of a bit field (R330). -/
def fieldLsb (b : Word) : Nat := bits b.toNat 0 6
def fieldWidth (b : Word) : Nat := min (bits b.toNat 8 7) (64 - fieldLsb b)

/-- BFX (R330). -/
def extractField (sgn : Bool) (a b : Word) : Word :=
  let w := fieldWidth b
  if w = 0 then 0
  else
    let x := bits a.toNat (fieldLsb b) w
    if sgn then .ofInt 64 (signed x w) else .ofNat 64 x

/-- BFI (R330). -/
def insertField (d a b : Word) : Word := .ofNat 64 (setBits d.toNat (fieldLsb b) (fieldWidth b) a.toNat)

/-- MOVH20 and MOVH40 (R393). -/
def high20 (d : Word) (i : BitVec 20) : Word := .ofNat 64 (setBits d.toNat 20 20 i.toNat)
def high40 (d : Word) (i : BitVec 20) : Word := .ofNat 64 (setBits d.toNat 40 24 (i.signExtend 24).toNat)

/-- The function of PLOG (R402). -/
def plogOp (fn : Nat) (a b : Bool) : Bool :=
  match fn with
  | 0 => a && b
  | 1 => a || b
  | 2 => a != b
  | 3 => a && !b
  | _ => !a

/-- ADD (R322). -/
def semAdd (f : SR3) : OpSem := alu3 f (some 1) fun a b => a + b
def execAdd (f : SR3) (s : State) : Host.Outcome State Fault Refusal := runSlot (.add f) (semAdd f) s

/-- SUB (R428). -/
def semSub (f : SR3) : OpSem := alu3 f (some 1) fun a b => a - b
def execSub (f : SR3) (s : State) : Host.Outcome State Fault Refusal := runSlot (.sub_ f) (semSub f) s

/-- MUL (R395). -/
def semMul (f : SR3) : OpSem := alu3 f (some 3) fun a b => a * b
def execMul (f : SR3) (s : State) : Host.Outcome State Fault Refusal := runSlot (.mul f) (semMul f) s

/-- MULH (R395). -/
def semMulh (f : SR3) : OpSem := alu3 f (some 3) fun a b => mulHigh (a.toInt * b.toInt)
def execMulh (f : SR3) (s : State) : Host.Outcome State Fault Refusal := runSlot (.mulh f) (semMulh f) s

/-- MULHN (R395). -/
def semMulhn (f : SR3) : OpSem := alu3 f (some 3) fun a b => mulHigh ((a.toNat * b.toNat : Nat) : Int)
def execMulhn (f : SR3) (s : State) : Host.Outcome State Fault Refusal := runSlot (.mulhn f) (semMulhn f) s

/-- DIV (R351): −2^63 / −1 gives −2^63. -/
def semDiv (f : SR3) : OpSem := divOp f BitVec.sdiv
def execDiv (f : SR3) (s : State) : Host.Outcome State Fault Refusal := runSlot (.div f) (semDiv f) s

/-- DIVN (R351). -/
def semDivn (f : SR3) : OpSem := divOp f (fun a b => a / b)
def execDivn (f : SR3) (s : State) : Host.Outcome State Fault Refusal := runSlot (.divn f) (semDivn f) s

/-- REM (R410). -/
def semRem (f : SR3) : OpSem := divOp f BitVec.srem
def execRem (f : SR3) (s : State) : Host.Outcome State Fault Refusal := runSlot (.rem_ f) (semRem f) s

/-- REMN (R410). -/
def semRemn (f : SR3) : OpSem := divOp f (fun a b => a % b)
def execRemn (f : SR3) (s : State) : Host.Outcome State Fault Refusal := runSlot (.remn f) (semRemn f) s

/-- AND (R322). -/
def semAnd (f : SR3) : OpSem := alu3 f (some 1) fun a b => a &&& b
def execAnd (f : SR3) (s : State) : Host.Outcome State Fault Refusal := runSlot (.and_ f) (semAnd f) s

/-- OR (R397). -/
def semOr (f : SR3) : OpSem := alu3 f (some 1) fun a b => a ||| b
def execOr (f : SR3) (s : State) : Host.Outcome State Fault Refusal := runSlot (.or_ f) (semOr f) s

/-- XOR (R428). -/
def semXor (f : SR3) : OpSem := alu3 f (some 1) fun a b => a ^^^ b
def execXor (f : SR3) (s : State) : Host.Outcome State Fault Refusal := runSlot (.xor_ f) (semXor f) s

/-- ANDN (R322). -/
def semAndn (f : SR3) : OpSem := alu3 f (some 1) fun a b => a &&& ~~~b
def execAndn (f : SR3) (s : State) : Host.Outcome State Fault Refusal := runSlot (.andn f) (semAndn f) s

/-- SHL (R416). -/
def semShl (f : SR3) : OpSem := alu3 f (some 1) fun a b => a <<< (b.toNat % 64)
def execShl (f : SR3) (s : State) : Host.Outcome State Fault Refusal := runSlot (.shl f) (semShl f) s

/-- SHR (R416). -/
def semShr (f : SR3) : OpSem := alu3 f (some 1) fun a b => a >>> (b.toNat % 64)
def execShr (f : SR3) (s : State) : Host.Outcome State Fault Refusal := runSlot (.shr f) (semShr f) s

/-- SAR (R416). -/
def semSar (f : SR3) : OpSem := alu3 f (some 1) fun a b => a.sshiftRight (b.toNat % 64)
def execSar (f : SR3) (s : State) : Host.Outcome State Fault Refusal := runSlot (.sar f) (semSar f) s

/-- ROR (R413). -/
def semRor (f : SR3) : OpSem := alu3 f (some 1) fun a b => a.rotateRight (b.toNat % 64)
def execRor (f : SR3) (s : State) : Host.Outcome State Fault Refusal := runSlot (.ror f) (semRor f) s

/-- MIN (R384). -/
def semMin (f : SR3) : OpSem := alu3 f (some 1) fun a b => if a.toInt ≤ b.toInt then a else b
def execMin (f : SR3) (s : State) : Host.Outcome State Fault Refusal := runSlot (.min_ f) (semMin f) s

/-- MAX (R384). -/
def semMax (f : SR3) : OpSem := alu3 f (some 1) fun a b => if a.toInt ≤ b.toInt then b else a
def execMax (f : SR3) (s : State) : Host.Outcome State Fault Refusal := runSlot (.max_ f) (semMax f) s

/-- MINN (R384). -/
def semMinn (f : SR3) : OpSem := alu3 f (some 1) fun a b => if a.toNat ≤ b.toNat then a else b
def execMinn (f : SR3) (s : State) : Host.Outcome State Fault Refusal := runSlot (.minn f) (semMinn f) s

/-- MAXN (R384). -/
def semMaxn (f : SR3) : OpSem := alu3 f (some 1) fun a b => if a.toNat ≤ b.toNat then b else a
def execMaxn (f : SR3) (s : State) : Host.Outcome State Fault Refusal := runSlot (.maxn f) (semMaxn f) s

/-- CLZ (R322). -/
def semClz (f : SR2) : OpSem := alu2 f clz64
def execClz (f : SR2) (s : State) : Host.Outcome State Fault Refusal := runSlot (.clz f) (semClz f) s

/-- POPC (R403). -/
def semPopc (f : SR2) : OpSem := alu2 f popc64
def execPopc (f : SR2) (s : State) : Host.Outcome State Fault Refusal := runSlot (.popc f) (semPopc f) s

/-- SEL (R419): pred and pneg select, and there is no slot predicate. -/
def semSel (f : SR3) : OpSem := 
  .plain (fun _ => true) [rK f.p, rG f.a, rG f.b] [(rG f.d, some 1)]
    (fun s => s.putG f.d (if s.predIs f.p f.n then s.srcG f.a else s.srcG f.b))
def execSel (f : SR3) (s : State) : Host.Outcome State Fault Refusal := runSlot (.sel_ f) (semSel f) s

/-- BFX (R330). -/
def semBfx (f : FBfx) : OpSem := 
  .plain (fun s => s.predIs f.p f.n) [rK f.p, rG f.a, rG f.b] [(rG f.d, some 1)]
    (fun s => s.putG f.d (extractField (f.s == 1) (s.srcG f.a) (s.srcG f.b)))
def execBfx (f : FBfx) (s : State) : Host.Outcome State Fault Refusal := runSlot (.bfx f) (semBfx f) s

/-- BFI (R330): rd is a source too. -/
def semBfi (f : SR3) : OpSem := 
  .plain (fun s => s.predIs f.p f.n) [rK f.p, rG f.a, rG f.b, rG f.d] [(rG f.d, some 1)]
    (fun s => s.putG f.d (insertField (s.srcG f.d) (s.srcG f.a) (s.srcG f.b)))
def execBfi (f : SR3) (s : State) : Host.Outcome State Fault Refusal := runSlot (.bfi f) (semBfi f) s

/-- CMP (R336). -/
def semCmp (f : FCmp) : OpSem := 
  .plain (fun s => s.predIs f.p f.n) [rK f.p, rG f.a, rG f.b] [(rK f.k, some 1)]
    (fun s => s.putK f.k (intCond 64 f.f.toNat (s.srcG f.a).toNat (s.srcG f.b).toNat))
def execCmp (f : FCmp) (s : State) : Host.Outcome State Fault Refusal := runSlot (.cmp f) (semCmp f) s

/-- PLOG (R402). -/
def semPlog (f : FPlog) : OpSem := 
  .plain (fun s => s.predIs f.p f.n) [rK f.p, rK f.a, rK f.b] [(rK f.k, some 1)]
    (fun s => s.putK f.k (plogOp f.f.toNat (s.srcK f.a) (s.srcK f.b)))
def execPlog (f : FPlog) (s : State) : Host.Outcome State Fault Refusal := runSlot (.plog f) (semPlog f) s

/-- ADDI (R322). -/
def semAddi (f : SI) : OpSem := aluI f 1 (immS f.i) fun a b => a + b
def execAddi (f : SI) (s : State) : Host.Outcome State Fault Refusal := runSlot (.addi f) (semAddi f) s

/-- ANDI (R322). -/
def semAndi (f : SI) : OpSem := aluI f 1 (immS f.i) fun a b => a &&& b
def execAndi (f : SI) (s : State) : Host.Outcome State Fault Refusal := runSlot (.andi f) (semAndi f) s

/-- ORI (R397). -/
def semOri (f : SI) : OpSem := aluI f 1 (immZ f.i) fun a b => a ||| b
def execOri (f : SI) (s : State) : Host.Outcome State Fault Refusal := runSlot (.ori f) (semOri f) s

/-- XORI (R428). -/
def semXori (f : SI) : OpSem := aluI f 1 (immZ f.i) fun a b => a ^^^ b
def execXori (f : SI) (s : State) : Host.Outcome State Fault Refusal := runSlot (.xori f) (semXori f) s

/-- MULI (R395). -/
def semMuli (f : SI) : OpSem := aluI f 3 (immS f.i) fun a b => a * b
def execMuli (f : SI) (s : State) : Host.Outcome State Fault Refusal := runSlot (.muli f) (semMuli f) s

/-- SHLI (R416). -/
def semShli (f : SIsh) : OpSem := shiftI f fun a n => a <<< n
def execShli (f : SIsh) (s : State) : Host.Outcome State Fault Refusal := runSlot (.shli f) (semShli f) s

/-- SHRI (R416). -/
def semShri (f : SIsh) : OpSem := shiftI f fun a n => a >>> n
def execShri (f : SIsh) (s : State) : Host.Outcome State Fault Refusal := runSlot (.shri f) (semShri f) s

/-- SARI (R416). -/
def semSari (f : SIsh) : OpSem := shiftI f fun a n => a.sshiftRight n
def execSari (f : SIsh) (s : State) : Host.Outcome State Fault Refusal := runSlot (.sari f) (semSari f) s

/-- CMPI (R336): no slot predicate. -/
def semCmpi (f : FCmpi) : OpSem := 
  .plain (fun _ => true) [rG f.a] [(rK f.k, some 1)]
    (fun s => s.putK f.k (intCond 64 f.c.toNat (s.srcG f.a).toNat (immS f.i).toNat))
def execCmpi (f : FCmpi) (s : State) : Host.Outcome State Fault Refusal := runSlot (.cmpi f) (semCmpi f) s

/-- MOVI (R393). -/
def semMovi (f : SW) : OpSem := movOp f false fun _ => immS f.i
def execMovi (f : SW) (s : State) : Host.Outcome State Fault Refusal := runSlot (.movi f) (semMovi f) s

/-- MOVH20 (R393). -/
def semMovh20 (f : SW) : OpSem := movOp f true fun d => high20 d f.i
def execMovh20 (f : SW) (s : State) : Host.Outcome State Fault Refusal := runSlot (.movh20 f) (semMovh20 f) s

/-- MOVH40 (R393). -/
def semMovh40 (f : SW) : OpSem := movOp f true fun d => high40 d f.i
def execMovh40 (f : SW) (s : State) : Host.Outcome State Fault Refusal := runSlot (.movh40 f) (semMovh40 f) s

/-- ZSET (R441): the staging registers belong to the core. -/
def semZset (f : FZset) : OpSem := 
  .plain (fun s => s.predIs f.p f.n) [rK f.p, rG f.a] []
    (fun s => s.onMyCore fun k => { k with z := vset k.z f.z.toNat (s.srcG f.a) })
def execZset (f : FZset) (s : State) : Host.Outcome State Fault Refusal := runSlot (.zset f) (semZset f) s

/-- ZGET (R441). -/
def semZget (f : FZget) : OpSem := 
  .plain (fun s => s.predIs f.p f.n) [rK f.p] [(rG f.d, some 2)]
    (fun s => s.putG f.d (s.srcZ f.z.toNat))
def execZget (f : FZget) (s : State) : Host.Outcome State Fault Refusal := runSlot (.zget f) (semZget f) s

/-- NOP (R396). -/
def semNop : OpSem := .plain (fun _ => true) [] [] (fun s => s)
def execNop (s : State) : Host.Outcome State Fault Refusal := runSlot .nop semNop s

end Sys2Proof.Machine
end

