-- ==== Sys2Proof/Machine/Group.lean ====
section
/-! DEFINITION. Groups of berths: exchanges into phase banks (R229, R440), barriers (R328), collectives (R230, R338). -/

namespace Sys2Proof.Machine

/-! ## XST_ARRIVE (R229, R440) -/

/-- The bytes of an XST written to a back bank, with the marks of their blocks, on the XCHG path of the sender. -/
def State.writeXst (s : State) (k : Command) (cl addr n bytes marks : Nat) : State × Nat :=
  let s := s.onSpad cl fun m => m.write addr n bytes
  let s := (List.range (n / 128)).foldl (fun (s : State) i =>
    s.onBlock cl (addr + 128 * i) fun x => { x with mark := bit marks i }) s
  s.stampSpad cl true k.pts addr n

/-- The acknowledgement of a packet of an XST, with the packet's mark (R226): its bytes are counted, and with the last the command is
performed. -/
def State.ackXst (s : State) (id cl n ts : Nat) (landed hit : Bool) : State :=
  match Map.get? s.commands id with
  | none => s
  | some k =>
    let s := s.carryReply hit cl (clusterOf k.core)
    let k := { k with done := k.done + 1, maxTs := max k.maxTs ts }
    let (s, k) := if landed then
        (List.range (n / 128)).foldl (fun (x : State × Command) _ => x.1.onSync x.2 n fun m a => countSync m a 128) (s, k)
      else s.recordLoss k 0
    (s.setCommand id k).later (.engineCommandComplete id)

/-- The packets that a cluster's early buffer holds (R229). -/
def State.earlyHeld (s : State) (cl : Nat) : Nat :=
  (s.messages.filter fun e => match e.2 with
    | .xst _ k _ _ _ _ early => k == cl && early
    | _ => false).length

/-- A packet whose bank the sender's launch may be written to (R440). -/
def State.backBank (s : State) (k : Command) (cl bank : Nat) : Bool :=
  let b := (s.cluster cl).bank bank
  b.mode == .scratchpad && b.owner == some k.slot

/-- The receiving cluster and the phase tag of a packet of an XST, and its bytes in the back bank. -/
structure Parcel where
  cluster : Nat
  tag : Nat
  addr : Nat
  size : Nat
  deriving DecidableEq, Repr

/-- The parcel of a packet of a command's XST. -/
def Command.parcel (k : Command) (m : Msg) : Option Parcel :=
  match m, k.work with
  | .xst _ cl tag first n _ _, .xst _ _ _ _ _ offset bankA bankB =>
    some { cluster := cl, tag := tag, addr := xstBank tag bankA bankB * bankSize + offset + first, size := n }
  | _, _ => none

/-- Two parcels of one phase share bytes. -/
def Parcel.meets (x y : Parcel) : Bool :=
  x.cluster == y.cluster && x.tag == y.tag && decide (x.addr < y.addr + y.size) && decide (y.addr < x.addr + x.size)

/-- A packet of an earlier XST of the task is still to write bytes that a packet writes (R183). -/
def State.xstBehind (s : State) (k : Command) (m : Msg) : Bool :=
  match k.parcel m with
  | none => false
  | some p => s.messages.any fun e =>
    match e.2 with
    | .xst cmd .. =>
      match Map.get? s.commands cmd with
      | some j => j.task == k.task && decide (j.order < k.order) && ((j.parcel e.2).map p.meets).getD false
      | none => false
    | _ => false

/-- XST_ARRIVE (R229, R440): a packet of the present phase is written to the back bank, after those of earlier XSTs of the task to the
same bytes (R183); one of the next phase takes a place of the early buffer, of 16, or waits in the input of the quay. -/
def State.xstArrive (s : State) (id : Nat) : State :=
  match Map.get? s.messages id with
  | some (.xst cmd cl tag first n bytes early) =>
    match Map.get? s.commands cmd with
    | none => s.received id
    | some k =>
      match k.work with
      | .xst _ marks _ _ ident offset bankA bankB =>
        let phase := s.phase cl k.slot ident
        if tag ≠ phase then
          if early || decide (16 ≤ s.earlyHeld cl) then s
          else (s.count cl 0xB).setMsg id (.xst cmd cl tag first n bytes true)
        else if s.xstBehind k (.xst cmd cl tag first n bytes early) then s
        else
          let bank := xstBank phase bankA bankB
          let hit := s.marked.contains id
          let s := s.received id
          if s.backBank k cl bank then
            let (s, ts) := s.writeXst k cl (bank * bankSize + offset + first) n bytes (marks / 2 ^ (first / 128))
            s.ackXst cmd cl n ts true hit
          else s.ackXst cmd cl n 0 false hit
      | _ => s.received id
  | _ => s
def execXstArrive (id : Nat) (s : State) : Host.Outcome State Fault Refusal := .next (s.xstArrive id)

/-! ## BAR_ARRIVAL and BAR_COMPLETION_ARRIVE (R328) -/

/-- A record of a barrier unit; absent, it is as cleared. -/
def State.barrier (s : State) (home slot ident : Nat) : Barrier :=
  (s.barriers.find? fun b => b.home == home && b.slot == slot && b.ident == ident).getD
    { home := home, slot := slot, ident := ident, arrived := [], count := 0, usesBanks := false, bankA := 0, bankB := 0,
      swap := false, gen := 0, phase := 0 }

def State.setBarrier (s : State) (x : Barrier) : State :=
  { s with barriers :=
      (s.barriers.filter fun b => !(b.home == x.home && b.slot == x.slot && b.ident == x.ident)) ++ [x] }

/-- The record after an arrival: the first of a round fixes its COUNT and banks. -/
def Barrier.arrive (x : Barrier) (member : Nat × Nat × Nat) (w : Word) (swap : Bool) : Barrier :=
  let x := if x.arrived = [] then
      { x with count := groupCount w, usesBanks := groupBanked w, bankA := groupA w, bankB := groupB w, swap := false }
    else x
  { x with arrived := x.arrived ++ [member], swap := x.swap || swap }

/-- The record after a round. -/
def Barrier.complete (x : Barrier) : Barrier :=
  { x with arrived := [], gen := x.gen + 1, phase := if x.usesBanks && x.swap then x.phase + 1 else x.phase, swap := false }

/-- The clocks of the members of a round joined: what any of them issued before its arrival precedes what any of them issues
after the completion. -/
def State.joinMembers (s : State) (l : List (Nat × Nat × Nat)) : State :=
  let t := l.foldl (fun t m => (List.range 8).foldl (fun t p => max t (s.ptsOf m.1 m.2.1 p)) t) 0
  l.foldl (fun (s : State) m => (List.range 8).foldl (fun (s : State) p => s.raisePts m.1 m.2.1 p t) s) s

/-- BAR_ARRIVAL: at COUNT the round completes, and the completion goes to the cluster of every member. An arrival's mark stays with its
number until then (R226). -/
def State.barArrival (s : State) (id : Nat) : State :=
  match Map.get? s.messages id with
  | some (.bar c b slot w swap) =>
    let s := (s.received id).setMark id (s.marked.contains id)
    let x := (s.barrier (groupHome w) slot (groupId w)).arrive (c, b, id) w swap
    if x.arrived.length < x.count then s.setBarrier x
    else
      let y := x.complete
      let s := (s.setBarrier y).joinMembers x.arrived
      ((x.arrived.map fun m => clusterOf m.1).dedup).foldl (fun (s : State) cl =>
        (s.carry pkAnswer (.quay (groupHome w)) (.quay cl)).send (.barDone cl slot x.ident y.phase (x.arrived.filter fun m => clusterOf m.1 == cl))) s
  | _ => s
def execBarArrival (id : Nat) (s : State) : Host.Outcome State Fault Refusal := .next (s.barArrival id)

/-- An XST packet of a group on its way to a cluster. -/
def State.xstWaits (s : State) (cl slot ident : Nat) (m : Msg) : Bool :=
  match m with
  | .xst cmd k .. =>
    k == cl && (match Map.get? s.commands cmd with
      | some c => c.slot == slot && (match c.work with
        | .xst _ _ _ _ i _ _ _ => i == ident
        | _ => false)
      | none => false)
  | _ => false

/-- The completion reaches a member, by core and berth with the number of its arrival, whose mark it brings back (R226). -/
def State.passBar (s : State) (cl : Nat) (m : Nat × Nat × Nat) : State :=
  let s := if s.marked.contains m.2.2 then (s.setMark m.2.2 false).count cl 6 else s
  s.onBerth m.1 m.2.1 fun x => if x.awaiting = some m.2.2 then { x with awaiting := none, atBar := false }.settle else x

/-- BAR_COMPLETION_ARRIVE: the cluster records PHASE, its members go on, and packets held for the phase are taken up. -/
def State.barCompletion (s : State) (id : Nat) : State :=
  match Map.get? s.messages id with
  | some (.barDone cl slot ident phase members) =>
    let s := s.received id
    let s : State := { s with phases := Map.set s.phases (phaseKey cl slot ident) phase }
    let s := members.foldl (fun (s : State) m => s.passBar cl m) s
    let here (e : Nat × Msg) : Bool := s.xstWaits cl slot ident e.2 && (Map.get? s.sentAt e.1).isNone
    s.messages.foldl (fun (t : State) e => if here e then t.later (.xstArrive e.1) else t) s
  | _ => s
def execBarCompletionArrive (id : Nat) (s : State) : Host.Outcome State Fault Refusal := .next (s.barCompletion id)

/-! ## COLL_CONTRIBUTION (R230, R338) -/

/-- One element combined with another (R230): its bits and flags. -/
def combineElem (comb fmt x y : Nat) : Result :=
  match fmtOfCode fmt with
  | some (.float f) =>
    if comb = 0 then f.add .rn (f.value x) (f.value y) else laneMinMax f (comb == 1) x y
  | some (.int w sgn) =>
    let le : Bool := if sgn then decide (signed x w ≤ signed y w) else decide (x ≤ y)
    (if comb = 0 then (x + y) % 2 ^ w else if (comb == 1) == le then y else x, 0)
  | _ =>
    if comb = 0 then
      let r := satA64 (signed x 64 + signed y 64)
      (lowBits r.1 64, flagIf r.2 flagSat)
    else (if (comb == 1) == decide (signed x 64 ≤ signed y 64) then y else x, 0)

/-- A combined entry: its bytes, its flags, and the a64 lanes that saturated, as bits (R230). -/
structure Combined where
  bytes : Nat
  flags : BitVec 7
  lanes : Nat
  deriving DecidableEq, Repr

/-- The lanes of a64 elements that saturate as they are combined. -/
def satLanes (fmt : Nat) (l : List Result) : Nat :=
  match fmtOfCode fmt with
  | some (.float _) => 0
  | some (.int ..) => 0
  | _ => packElems 1 (l.map fun r => if r.2.getLsbD 5 then 1 else 0)

/-- Two entries combined element by element. -/
def combine (comb fmt size : Nat) (x y : Combined) : Combined :=
  let w := fmtWidth fmt
  let n := 8 * size / w
  let r := List.zipWith (combineElem comb fmt) (unpackElems w n x.bytes) (unpackElems w n y.bytes)
  let (l, fl) := collect r
  { bytes := packElems w l, flags := x.flags ||| y.flags ||| fl, lanes := x.lanes ||| y.lanes ||| satLanes fmt r }

/-- 2 ^ (Ceil(Log2(n)) - 1), the size of the left part of a tree of n > 1. -/
def treeSplit (n : Nat) : Nat := 2 ^ Nat.log2 (n - 1)

/-- Tree(a, n) over the entries of the contributions in rank order (R230), by fuel. -/
def treeOf (comb fmt size : Nat) : Nat → List Nat → Combined
  | 0, _ => { bytes := 0, flags := 0, lanes := 0 }
  | _, [] => { bytes := 0, flags := 0, lanes := 0 }
  | _, [x] => { bytes := x, flags := 0, lanes := 0 }
  | fuel + 1, l =>
    let m := treeSplit l.length
    combine comb fmt size (treeOf comb fmt size fuel (l.take m)) (treeOf comb fmt size fuel (l.drop m))

/-- Contributions to one record. -/
def Contribution.joins (x y : Contribution) : Bool :=
  x.slot == y.slot && x.job.cluster == y.job.cluster && x.job.ident == y.job.ident

/-- The contributions of the present round of a record: the first of each rank. -/
def roundOf (l : List Contribution) : List Contribution :=
  l.foldl (fun (r : List Contribution) x => if r.any fun y => y.job.rank == x.job.rank then r else r ++ [x]) []

/-- A round is complete: every rank below N has contributed. -/
def roundFull (r : List Contribution) : Bool :=
  match r with
  | [] => false
  | x :: _ => (List.range x.job.n).all fun i => r.any fun y => y.job.rank == i

/-- The result of a round, as the job of one of its contributions lays it down, and whether a contribution carried a poison mark. -/
def roundResult (r : List Contribution) (j : CollJob) : Combined × Bool :=
  let inOrder := (List.range j.n).filterMap fun i => r.find? fun y => y.job.rank == i
  let marked := (if j.kind = 2 then inOrder.filter fun y => y.job.rank == j.root else inOrder).any fun y => y.job.mark
  if j.kind = 2 then
    ({ bytes := ((inOrder.find? fun y => y.job.rank == j.root).map fun y => y.job.bytes).getD 0, flags := 0, lanes := 0 }, marked)
  else (treeOf j.comb j.fmt j.size 13 (inOrder.map fun y => y.job.bytes), marked)

/-- The result brings back the mark of its contributor's packet (R226). -/
def State.returnMark (s : State) (cmd cl : Nat) : State :=
  if s.marked.contains cmd then (s.setMark cmd false).count cl 6 else s

/-- A contributor's command takes the result for its DEST, which travels from the record's home (R230); a non-root of KIND 1 is
performed. -/
def State.deliver (s : State) (x : Contribution) (r : Combined × Bool) : State :=
  match Map.get? s.commands x.cmd with
  | none => s
  | some k =>
    if x.job.receives then
      let s := s.returnMark x.cmd (clusterOf k.core)
      ((s.carryData x.job.size (homeEnd x.job.cluster) (.quay (clusterOf k.core))).setCommand x.cmd { k with
        work := .result x.job.destSpad x.job.dest x.job.size r.1.bytes r.2 r.1.lanes, flags := r.1.flags, done := 0,
        sent := false }).later (.engineGranuleCheck x.cmd)
    else s

/-- The rounds of a contribution's record that have all their contributions computed, one after the other: those held for the next round
may make it up at once (R338). -/
def State.endRounds (x : Contribution) : Nat → State → State
  | 0, s => s
  | n + 1, s =>
    let r := roundOf (s.contributions.filter x.joins)
    match r with
    | [] => s
    | y :: _ =>
      if roundFull r then
        State.endRounds x n (r.foldl (fun (t : State) z => t.deliver z (roundResult r y.job))
          { s with contributions := s.contributions.filter fun z => !r.contains z })
      else s

/-- COLL_CONTRIBUTION. DESIGN CHOICE (log 39). -/
def State.collArrive (s : State) (id : Nat) : State :=
  match Map.get? s.messages id with
  | some (.coll cmd) =>
    let s := (s.received id).setMark cmd (s.marked.contains id)
    match Map.get? s.commands cmd with
    | none => s
    | some k =>
      match k.work with
      | .coll j =>
        let x : Contribution := { slot := k.slot, cmd := cmd, job := j }
        let s := if j.receives then s
          else (((s.carry pkAnswer (homeEnd j.cluster) (.quay (clusterOf k.core))).returnMark cmd (clusterOf k.core)).setCommand cmd { k with done := 1 }).later (.engineCommandComplete cmd)
        let l := s.contributions ++ [x]
        State.endRounds x l.length { s with contributions := l }
      | _ => s
  | _ => s
def execCollContribution (id : Nat) (s : State) : Host.Outcome State Fault Refusal := .next (s.collArrive id)

end Sys2Proof.Machine
end

