-- ==== Sys2Proof/Machine/Dock.lean ====
section
/-! DEFINITION. Suspicion scores, errors, the dry dock, retirement and capacity (R79 to R83, R157, R163, R217, R218, R224,
R234, R244, R251 to R262, R377). -/

namespace Sys2Proof.Machine

/-! ## Units (R252) -/

/-- A unit of the table of R252. -/
def unitExists (kind index : Nat) : Bool := decide (index < unitCount kind)

/-- The score of a unit: of a core the greatest of its three sub-units. -/
def State.unitScore (s : State) (kind index : Nat) : Nat := if kind ≤ 2 then s.coreScore index else s.score kind index

/-! ## Spare channels (R256, R257, R259) -/

/-- The stack of a channel, and whether it is one of the stack's spares. -/
def stackOf (ch : Nat) : Nat := ch / 132
def isSpare (ch : Nat) : Bool := 128 ≤ ch % 132

/-- The channels that spares serve for, as the records tell (R258): a retired channel by its spare; where a spare that served
was retired, by the next. -/
def sparesOf : List Record → Map Nat → Map Nat
  | [], m => m
  | r :: l, m =>
    if r.kind = 5 ∧ r.spare ≠ 0xFFFF then
      let ch := if isSpare r.index then
          ((m.find? fun e => stackOf e.1 == stackOf r.index && e.2 == r.index % 132).map Prod.fst).getD r.index
        else r.index
      sparesOf l (Map.set m ch r.spare)
    else sparesOf l m

/-- The spares of a stack that are left: in service, and in place of no channel for good; one that stands in for a channel under a
lease is freed when it returns (R24, R256). -/
def State.sparesLeft (s : State) (stack : Nat) : List Nat :=
  [128, 129, 130, 131].filter fun n =>
    !((sparesOf s.records []).any fun e => stackOf e.1 == stack && e.2 == n) && !s.isRetired 5 (132 * stack + n)

/-- The spares that are free to serve: left, standing in for no channel, and under no lease. -/
def State.freeSpares (s : State) (stack : Nat) : List Nat :=
  (s.sparesLeft stack).filter fun n =>
    !(s.spares.any fun e => stackOf e.1 == stack && e.2 == n) && !s.leased 5 (132 * stack + n)

/-- The channel that a spare serves for, for good or for a time, or the channel itself: what holds contents under this unit. -/
def State.servedBy (s : State) (ch : Nat) : Option Nat :=
  if isSpare ch then
    ((sparesOf s.records [] ++ s.spares).find? fun e => stackOf e.1 == stackOf ch && e.2 == ch % 132).map Prod.fst
  else some ch

/-- The spare that stands in for a unit under a lease or of a retired channel (R256). -/
def State.standIn (s : State) (ch : Nat) : Option Nat :=
  match s.servedBy ch with
  | some c => (Map.get? s.spares c).filter fun n => !(isSpare ch && n == ch % 132)
  | none => none

/-- A channel whose contents would need a spare, and its stack has none free; none left at all. -/
def State.noSpare (s : State) (ch : Nat) : Bool := (s.servedBy ch).isSome && (s.freeSpares (stackOf ch)).isEmpty
def State.spareless (s : State) (ch : Nat) : Bool := (s.servedBy ch).isSome && (s.sparesLeft (stackOf ch)).isEmpty

/-! ## Limits of the sequencer (R224, R254, R256) -/

/-- Whether the limits allow a lease on a unit now. -/
def State.leaseAllowed (s : State) (kind index : Nat) : Bool :=
  let other (f : Lease → Bool) : Bool := s.leases.any fun l => l.active && f l
  match kind with
  | 3 => (ringLinks (ringOf index)).all fun i => i == index || s.inService 3 i
  | 4 =>
    !(other fun l => l.kind == 4) &&
      (List.range 12).any fun x => index / 12 * 12 + x != index && s.inService 4 (index / 12 * 12 + x)
  | 5 => !(other fun l => l.kind == 5 && stackOf l.index == stackOf index) && !s.noSpare index
  | 6 => !(other fun l => l.kind == 6)
  | _ => !(other fun l => decide (l.kind ≤ 2) && l.index / 16 == index / 16)

/-! ## Slices (R153, R217, R218) -/

/-- No request is in flight to a slice, nor an accumulate at it (R217). -/
def State.sliceQuiet (s : State) (slice : Nat) : Bool :=
  (Map.getD s.forced slice []).isEmpty && (s.windows.all fun e => e.1 % 128 != slice || e.2.out == 0) &&
    s.messages.all fun e => match e.2 with
      | .acc a => a.kept || !(s.homedAt a.line slice)
      | _ => true

/-- The lines of a home index flushed, and the pins cleared (R153, R217). -/
def State.flushHome (s : State) (h : Nat) : State :=
  let s := ((s.lines.map Prod.fst).filter fun i => homeIndex i == h).foldl State.dropLine s
  { s with pins := s.pins.filter fun (e : Nat × Nat) => homeIndex e.1 != h }

/-- A home index remapped: the lines are flushed, and the receiving slice's floor rises to the other's (R217, R218). -/
def State.remapHome (s : State) (h new : Nat) : State :=
  let old := Map.getD s.remap h h
  let s := s.flushHome h
  { s with
    remap := Map.set s.remap h new
    floors := Map.set s.floors new (max (Map.getD s.floors old 0) (Map.getD s.floors new 0)) }

/-- The remap table brought up to date: a home that moves is flushed and its pins cleared, and once the requests in flight to it have
been answered its entry is rewritten (R217). -/
def State.remapSlices (s : State) : State :=
  (List.range 96).foldl (fun (s : State) h =>
    if s.servingSlice h = Map.getD s.remap h h then s
    else
      let s := s.flushHome h
      if s.sliceQuiet (Map.getD s.remap h h) then s.remapHome h (s.servingSlice h) else s) s

/-- No home index names a slice. -/
def State.sliceFree (s : State) (slice : Nat) : Bool := (List.range 96).all fun h => Map.getD s.remap h h != slice

/-! ## Leases (R255 to R257) -/

/-- The lease of a unit replaced. -/
def State.putLease (s : State) (x : Lease) : State :=
  { s with leases := (s.leases.filter fun (l : Lease) => !(sameUnit l.kind l.index x.kind x.index)) ++ [x] }

/-- A core that is to give up its tasks: no task is placed on it, and the walkers withdraw their offers (R64, R79). -/
def State.pendCore (s : State) (c : Nat) : State :=
  if (s.core c).service = .inService then (s.setCore c { s.core c with service := .leasePending }).withdrawOffers c else s

/-- A core that is LEASE_PENDING with the other core of its pair, under no lease of its own, takes tasks again (R79, R80). -/
def State.resumeCore (s : State) (c : Nat) : State :=
  if (s.core c).service = .leasePending ∧ !s.leased 0 c then (s.setCore c { s.core c with service := .inService }).coreOpens c else s

/-- The pair of a core is a logical core of a launch (R80). -/
def State.pairUsed (s : State) (c : Nat) : Bool := s.launches.any fun e => e.2.redundant && s.inDomain e.2 c

/-- The device cycle of a unit's last docking (R254). -/
def State.lastDocked (s : State) (x : Nat × Nat) : Nat := ((s.leaseOf x.1 x.2).map Lease.docked).getD 0

/-- A lease in REQUESTED (R79, R255): a core becomes LEASE_PENDING, with its pair where a redundant launch uses it (R80). -/
def State.startLease (s : State) (kind index : Nat) : State :=
  let s := s.putLease { kind := kind, index := index, state := 1, score := s.unitScore kind index, since := s.now,
                        docked := s.lastDocked (kind, index) }
  if kind ≤ 2 then
    let s := if s.pairUsed index then s.pendCore (pairCore index) else s
    (s.pendCore index).coreIdle index
  else if kind = 4 then s.remapSlices
  else s

/-- A memory band that the host is to vacate: the MEMORY_BAND event of a channel that must leave service (R259). -/
def State.askBand (s : State) (ch : Nat) : State :=
  if s.bandsDue.any fun x => x.2 == ch then s
  else
    let k := s.bands + s.bandsDue.length + 1
    ({ s with bandsDue := s.bandsDue ++ [(k, ch)] }).postDevice 0x0012 0xFF k ch

/-- DOCK_REQUEST (R254, R256): the sequencer requests a unit where its limits allow. A channel whose stack has no spare left is docked
only at score 128 or more, by way of R259; one whose stack's last spare stands in for another channel waits for its return. -/
def State.dockRequest (s : State) (kind index : Nat) : State :=
  if !unitExists kind index || !s.inService kind index then s
  else if kind = 5 ∧ s.spareless index then (if 128 ≤ s.unitScore 5 index then s.askBand index else s)
  else if s.leaseAllowed kind index then s.startLease kind index
  else s
def execDockRequest (kind index : Nat) (s : State) : Host.Outcome State Fault Refusal :=
  .next (s.unlessHeld [0x10, 0x12] (.dockRequest kind index) (s.dockRequest kind index))

/-- Every unit, a core by its kind 0 (R252). -/
def allUnits : List (Nat × Nat) := ([0, 3, 4, 5, 6].map fun k => (List.range (unitCount k)).map fun i => (k, i)).flatten

/-- The units in service that half a docking interval has passed over, the longest since docking first (R254).
DEDUCED (log 44). -/
def State.overdue (s : State) : List (Nat × Nat) :=
  (allUnits.filter fun x => s.inService x.1 x.2 &&
    decide (s.ctrl.dockhrs.toNat * 3600 * 2500000000 ≤ 2 * (s.now - s.lastDocked x))).mergeSort
      fun x y => decide (s.lastDocked x ≤ s.lastDocked y)

/-- The requests that are due or have waited for a limit, units of score 224 or more first, then those of score 128 or more,
then the routine dockings of the interval (R254). -/
def State.requestAgain (s : State) : State :=
  let l := s.scores.filterMap fun e =>
    let k := e.1 / 2 ^ 24
    let i := e.1 % 2 ^ 24
    if 128 ≤ e.2 ∧ s.inService k i then some (e.2, k, i) else none
  let rows (s : State) (l : List (Nat × Nat × Nat)) : State :=
    l.foldl (fun (s : State) (x : Nat × Nat × Nat) => s.later (.dockRequest x.2.1 x.2.2)) s
  let s := rows (rows s (l.filter fun x => decide (224 ≤ x.1))) (l.filter fun x => decide (x.1 < 224))
  s.overdue.foldl (fun (s : State) x => s.later (.dockRequest x.1 x.2)) s

/-- The packet whose delivery a row is, by the number of its request: a request or a reply of an access, a message, or the data of an
engine command (R234). -/
def State.rowPacket (s : State) (i : Instr) : Option (Nat × PacketKind × NetEnd × NetEnd) :=
  let accessOf (id : Nat) (reply : Bool) : Option (Nat × PacketKind × NetEnd × NetEnd) :=
    match Map.get? s.accesses id with
    | none => none
    | some a =>
      if reply then (if a.done && a.remote then some (id, a.answer, s.accessEnd a, a.origin) else none)
      else if !s.accessSends id a then none
      else some (id, a.request, a.origin, s.accessEnd a)
  match i with
  | .accessPerform id => accessOf id false
  | .accessReply id _ => accessOf id true
  | .ticketRequestArrive id =>
    (Map.get? s.accesses id).map fun a => (id, pkRequest, a.origin, NetEnd.ioDie)
  | .acchReply id =>
    match Map.get? s.messages id with
    | some (.acc a) => some (id, pkAnswer, s.accEnd a.line, .quay (clusterOf a.core))
    | _ => none
  | .engineDataLand id =>
    match Map.get? s.commands id with
    | some k =>
      if k.isAcch || !s.landSends k then none
      else
        ((s.runTargets k (s.run k)).head?).map fun n =>
          (id, s.landPacket k, NetEnd.quay (sourceQuay k.source), s.accEnd (256 * n))
    | none => none
  | _ =>
    match s.messages.find? fun e => e.2.row e.1 == i with
    | some (id, .acc a) =>
      if a.kept || a.decided then none else some (id, pkAcc a.forced, .quay (clusterOf a.core), s.accEnd a.line)
    | some (_, .xst _ _ _ _ _ _ true) => none
    | some (id, m) => (s.msgPackets m).1.head?.map fun k => (id, k, (s.msgPackets m).2)
    | none => none

/-- The physical addresses of a request, by its number. -/
def State.requestAddrs (s : State) (id : Nat) : List Nat :=
  match Map.get? s.accesses id, Map.get? s.messages id, Map.get? s.commands id with
  | some a, _, _ => [a.pa]
  | none, some (.acc a), _ => [a.line]
  | none, none, some k => (s.runTargets k (s.run k)).map (256 * ·)
  | _, _, _ => []

/-- The scale-up port by which a packet for an address leaves or enters the package (R232). -/
def State.portFor (s : State) (pa : Nat) : Option Nat :=
  match s.target pa with
  | .pod _ => s.portOf pa
  | _ => none

/-- The outputs of a way up to the one that crosses a link. -/
def upTo (link : Nat) : List (Nat × Nat) → List (Nat × Nat)
  | [] => []
  | o :: l => if outLink o.1 o.2 = link then [o] else o :: upTo link l

/-- A row delivers a packet that crosses a link, 192 + q being that of scale-up port q: its request, its kind, and the outputs it takes
up to the link. -/
def State.rowOver (s : State) (link : Nat) (i : Instr) : Option (Nat × PacketKind × List (Nat × Nat)) :=
  match s.rowPacket i with
  | none => none
  | some (id, k, a, b) =>
    let l := s.outputs k a b
    if 192 ≤ link then
      if (s.requestAddrs id).any fun pa => s.portFor pa == some (link - 192) then some (id, k, if a = .ioDie then [] else l)
      else none
    else if l.any fun o => outLink o.1 o.2 == link then some (id, k, upTo link l) else none

/-- The unit of a lease is free of work (R256): a link once the packets on their way over it are delivered (R223), a slice once its
lines are remapped. -/
def State.freeOfWork (s : State) (l : Lease) : Bool :=
  if l.kind ≤ 2 then
    (s.core l.index).service == .leasePending && (List.range 8).all fun b => (s.berth l.index b).status == .free
  else if l.kind = 3 then s.agenda.all fun i => (s.rowOver l.index i).isNone
  else if l.kind = 4 then s.sliceFree l.index
  else true

/-- DOCK_TESTING_START (R256): the unit's work has moved away, and its patterns run. Of a core of a pair the berths of that member are to
be FREE, and the other member is IN_SERVICE from then on: DESIGN CHOICE (log 97). Of the free spares the lowest-numbered stands in for a
channel: DESIGN CHOICE (log 96). -/
def State.testingStart (s : State) (kind index : Nat) : State :=
  match s.leaseOf kind index with
  | none => s
  | some l =>
    if l.state ≠ 1 || !s.freeOfWork l then s
    else
      let s := s.putLease { l with state := 2, since := s.now, docked := s.now }
      if l.kind ≤ 2 then (s.setCore index { s.core index with service := .leased }).resumeCore (pairCore index)
      else if l.kind = 5 then
        match s.servedBy index, s.freeSpares (stackOf index) with
        | some ch, n :: _ => { s with spares := Map.set s.spares ch n }
        | _, _ => s
      else s
def execDockTestingStart (kind index : Nat) (s : State) : Host.Outcome State Fault Refusal :=
  .next (s.unlessHeld [0x10, 0x12] (.dockTestingStart kind index) (s.testingStart kind index))

/-- A unit back in service, its lease in a last state; the event of code n, none of which stands for no event (R255, R277). -/
def State.returnUnit (s : State) (l : Lease) (state : Nat) (event : Nat) : State :=
  let tested := 2 ≤ l.state
  let s := s.putLease { l with state := state }
  let s :=
    if l.kind ≤ 2 then
      ((s.setCore l.index { s.core l.index with service := .inService }).coreOpens l.index).resumeCore (pairCore l.index)
    else if l.kind = 4 then s.remapSlices
    else if l.kind = 5 && tested then
      -- the contents go back from the spare that stood in
      match s.servedBy l.index with
      | some ch => { s with spares := if isSpare l.index then Map.set s.spares ch (l.index % 132) else Map.erase s.spares ch }
      | none => s
    else s
  (s.postDevice 0x000F 0xFF (l.kind * 2 ^ 24 + l.index) (event + 2 ^ 8 * s.unitScore l.kind l.index)).requestAgain

/-- DOCK_WITHDRAW (R255): the lease of a core still in REQUESTED after 10 ms, 25,000,000 core cycles, at a score below 224. -/
def State.dockWithdraw (s : State) (kind index : Nat) : State :=
  match s.leaseOf kind index with
  | none => s
  | some l =>
    if l.state = 1 ∧ l.kind ≤ 2 ∧ 25000000 ≤ s.now - l.since ∧ s.coreScore index < 224 then s.returnUnit l 4 2 else s
def execDockWithdraw (kind index : Nat) (s : State) : Host.Outcome State Fault Refusal :=
  .next (s.unlessHeld [0x10, 0x12] (.dockWithdraw kind index) (s.dockWithdraw kind index))

/-! ## Retirement (R82, R250, R258 to R261) -/

/-- A capacity-change notification for a launch (R83, R260). -/
def State.notifyLaunch (s : State) (slot : Nat) (l : Launch) (kind index change seq : Nat) : State :=
  let cores := (l.cores.filter (s.inDomain l)).length
  let pkt : List Word :=
    [0x10, .ofNat 64 (s.capgen.toNat + kind * 2 ^ 32 + change * 2 ^ 40), .ofNat 64 (index + cores * 2 ^ 32), .ofNat 64 seq]
  match s.enqueue l.notifyCl l.notifyQ slot pkt with
  | some s => s
  | none => s.postDevice 0x000A slot s.capgen.toNat 0

/-- The 64 bytes of a record in the nonvolatile store (R258). -/
def Record.image (r : Record) : Nat :=
  let x := 1 + r.kind * 2 ^ 16 + r.cause * 2 ^ 24 + r.index * 2 ^ 32 + r.seq * 2 ^ 64 + r.seconds * 2 ^ 128 +
    r.pattern * 2 ^ 192 + r.score * 2 ^ 224 + r.band * 2 ^ 232 + r.spare * 2 ^ 240 + r.capgen * 2 ^ 256 + r.offset * 2 ^ 288 +
    r.diff * 2 ^ 320
  x + crc32 60 x * 2 ^ 480

/-- The record of a retirement written, in a store of 4,096, SR.CAPGEN advanced for a capacity change, and UNIT_RETIRED posted
(R258, R259). -/
def State.writeRecord (s : State) (kind index cause : Nat) (run : PatternRun) (spare band : Nat) (change : Bool) : State :=
  let s := if change then { s with capgen := s.capgen + 1 } else s
  let r : Record :=
    { kind := kind, cause := cause, index := index, seq := s.records.length + 1, seconds := s.seconds, pattern := run.pattern,
      score := s.score kind index, band := band, spare := spare, capgen := s.capgen.toNat, offset := run.offset,
      diff := run.diff.toNat }
  ({ s with records := (s.records ++ [r]).take 4096 }).postDevice 0x0010 0xFF (kind * 2 ^ 24 + index) r.seq

/-- The launches whose domain contained a core, with the CHANGE that each is told (R250, R260). DEDUCED (log 47). -/
def State.coreAudience (s : State) (c : Nat) : List (Nat × Launch × Nat) :=
  (s.launches.filter fun e => s.inDomain e.2 c).map fun e => (e.1, e.2, if e.2.redundant then 3 else 0)

/-- The tasks that wait for a core alone retired as failed (R82): evicted tasks, start vectors not yet placed, and of a pair
those of both members; a walker's iterations have been withdrawn. -/
def State.failWaiting (s : State) (c : Nat) : State :=
  let pairTask (w : Candidate) : Bool := ((s.launch w.task.slot).map Launch.redundant).getD false
  let lost (k : Nat) : List Candidate := (s.core k).waiting.filter fun w => k == c || pairTask w
  let drop (s : State) (k : Nat) : State :=
    let s := (lost k).foldl (fun (s : State) w => if w.evicted then s.freeRecord k w else s) s
    s.setCore k { s.core k with waiting := (s.core k).waiting.filter fun w => !(lost k).contains w }
  let there := (lost (pairCore c)).filter fun w => !((lost c).any fun x => x.task.uid == w.task.uid)
  let s := drop (drop s c) (pairCore c)
  let fail (k : Nat) (s : State) (w : Candidate) : State := (s.notifyLost k w.task).countTask w.task.slot true
  let s := there.foldl (fail (pairCore c)) ((lost c).foldl (fail c) s)
  s.launches.foldl (fun (t : State) e =>
    let mine (i : Nat) : Bool := ((e.2.startVectors[i]?).map fun v =>
      v.core == c || (e.2.redundant && pairCore v.core == c)).getD false
    let out := e.2.toOffer.filter mine
    let t := t.onLaunch e.1 fun (l : Launch) =>
      { l with toOffer := l.toOffer.filter fun i => !mine i, toLoad := l.toLoad.filter fun x => x.2 != c }
    out.foldl (fun (t : State) _ => t.countTask e.1 true) t) s

/-- The resident tasks of a pair one of whose members is retired fail, those too that have halted and not retired yet (R82, R250). -/
def State.failPairs (s : State) (c : Nat) : State :=
  (List.range 8).foldl (fun (s : State) b =>
    match (s.berth c b).partner with
    | some (d, e) =>
      let stop (s : State) (c b : Nat) : State :=
        if (s.berth c b).status = .draining then s.onBerth c b fun x => { x with failed := true }
        else ((s.discardHeld c b).onBerth c b fun x => { x.fail with park := none, awaiting := none, atBar := false,
                                                                       revoking := none }).later (.taskRetire c b)
      stop (stop s c b) d e
    | none => s) s

/-- A core out of service for good (R82). DEDUCED (log 46). -/
def State.retireCore (s : State) (c : Nat) : State :=
  let s := s.withdrawOffers c
  (((s.setCore c { s.core c with service := .retired }).failWaiting c).failPairs c).resumeCore (pairCore c)

/-- The run of no pattern. -/
def noRun : PatternRun := { pattern := 0, failsFirst := false, failsSecond := false, offset := 0, diff := 0 }

/-- A channel retired whose contents stand elsewhere: its record, and the notification that its stack's last spare is consumed (R24,
R259). -/
def State.retireChannel (s : State) (index cause : Nat) (run : PatternRun) (spare : Nat) (last : Bool) : State :=
  let s := s.putLease { kind := 5, index := index, state := 7, score := s.score 5 index, since := s.now, docked := s.now }
  let s := s.writeRecord 5 index cause run spare 0 last
  let s := if last then s.launches.foldl (fun (t : State) e => t.notifyLaunch e.1 e.2 5 index 1 t.records.length) s else s
  s.requestAgain

/-- A spare that stands in for a channel under a lease, and will be freed when that returns (R256). -/
def State.standsIn (s : State) (index : Nat) : Bool :=
  isSpare index && (s.servedBy index).isSome &&
    !((sparesOf s.records []).any fun e => stackOf e.1 == stackOf index && e.2 == index % 132)

/-- A channel that can be retired only when a spare of its stack, the last, returns from a lease or from the channel for which it stands
in, itself such a spare or not (R24, R256). DESIGN CHOICE (log 96). -/
def State.awaitsSpare (s : State) (kind index : Nat) : Bool :=
  kind == 5 && unitExists kind index && !s.isRetired kind index && s.noSpare index && (s.standIn index).isNone &&
    (s.standsIn index || !((s.sparesLeft (stackOf index)).filter fun n => !(isSpare index && n == index % 132)).isEmpty)

/-- A unit retired (R257 to R259). Of the free spares the lowest-numbered takes a channel's place: DESIGN CHOICE (log 96). A channel whose
stack has no spare for it stays in service until its band is vacated. -/
def State.retireUnit (s : State) (kind index cause : Nat) (run : PatternRun) : State :=
  if !unitExists kind index || s.isRetired kind index then s
  else if kind = 5 then
    let left := (s.sparesLeft (stackOf index)).filter fun n => !(isSpare index && n == index % 132)
    let stand := s.standIn index <|> (s.freeSpares (stackOf index)).head?
    match s.servedBy index, stand with
    | some _, none => s.askBand index
    | some ch, some n =>
      let forGood := !isSpare index || (sparesOf s.records []).any fun e => e.1 == ch && e.2 == index % 132
      State.retireChannel { s with spares := Map.set s.spares ch n } index cause run (if forGood then n else 0xFFFF)
        (left.filter fun x => !(forGood && x == n)).isEmpty
    | none, _ => s.retireChannel index cause run 0xFFFF left.isEmpty
  else
    let told := if kind ≤ 2 then s.coreAudience index else s.launches.map fun e => (e.1, e.2, 0)
    let s := s.putLease { kind := kind, index := index, state := 7, score := s.unitScore kind index, since := s.now,
                          docked := s.now }
    let s := s.writeRecord kind index cause run 0xFFFF 0 true
    let seq := s.records.length
    let s :=
      if kind ≤ 2 then s.retireCore index
      else if kind = 4 then s.remapSlices
      else if kind = 3 ∧ ((ringLinks (ringOf index)).filter fun i => s.isRetired 3 i).length = 2 then
        s.postDevice 0x0011 0xFF ((ringOf index).1 + 2 * (ringOf index).2) 0
      else s
    (told.foldl (fun (s : State) x => s.notifyLaunch x.1 x.2.1 kind index x.2.2 seq) s).requestAgain

/-- DOCK_VERDICT (R257): a pattern that fails twice retires the unit; one that fails once costs its sub-unit 64 points; a clean
run of a lease taken at score 128 or more resets the score. -/
def State.dockVerdict (s : State) (kind index : Nat) (runs : List PatternRun) : State :=
  match s.leaseOf kind index with
  | none => s
  | some l =>
    if l.state ≠ 2 then s
    else
      let part (r : PatternRun) : Nat := if l.kind ≤ 2 ∧ r.pattern / 2 ^ 24 ≤ 2 then r.pattern / 2 ^ 24 else l.kind
      match runs.find? fun r => r.failsFirst && r.failsSecond with
      | some r => s.retireUnit (part r) index 1 r
      | none =>
        match runs.filter fun r => r.failsFirst with
        | r :: t => ((r :: t).foldl (fun (s : State) r => s.raiseScore (part r) index 64) s).returnUnit l 5 0
        | [] =>
          if 128 ≤ l.score then
            let s := { s with scores := (if l.kind ≤ 2 then [0, 1, 2] else [l.kind]).foldl (fun (m : Map Nat) k =>
              Map.set m (k * 2 ^ 24 + index) 0) s.scores }
            s.returnUnit l 6 1
          else s.returnUnit l 5 0
def execDockVerdict (kind index : Nat) (runs : List PatternRun) (s : State) : Host.Outcome State Fault Refusal :=
  .next (s.unlessHeld [0x10, 0x12] (.dockVerdict kind index runs) (s.dockVerdict kind index runs))

/-- RETIRE (R280): the host retires a unit with CAUSE 0x02; a channel that awaits a spare once that returns. -/
def State.hostRetire (s : State) (kind index : Nat) : State :=
  if s.awaitsSpare kind index then { s with stalledRows := s.stalledRows ++ [.retire kind index] }
  else s.unlessHeld [0x10, 0x12] (.retire kind index) (s.retireUnit kind index 2 noRun)
def execRetire (kind index : Nat) (s : State) : Host.Outcome State Fault Refusal := .next (s.hostRetire kind index)

/-- BANDDONE (R259): the channel is retired with CAUSE 0x04, and its band withdrawn. -/
def State.bandDone (s : State) (band : Nat) : State :=
  match s.bandsDue.find? fun x => x.1 == band with
  | none => s
  | some (k, ch) =>
    let s := { s with bandsDue := s.bandsDue.filter fun (x : Nat × Nat) => x.1 != band }
    let s := s.putLease { kind := 5, index := ch, state := 7, score := s.score 5 ch, since := s.now, docked := s.now }
    let s := s.writeRecord 5 ch 4 noRun 0xFFFF k true
    s.launches.foldl (fun (t : State) e => t.notifyLaunch e.1 e.2 5 k 2 t.records.length) s
def execBanddone (band : Nat) (s : State) : Host.Outcome State Fault Refusal :=
  .next (s.unlessHeld [0x10, 0x12] (.banddone band) (s.bandDone band))

/-! ## LEASE (R377) -/

/-- The status of LEASE and, where it is 0, the state after it. DEDUCED (log 45). -/
def State.leaseReq (s : State) (kind index : Nat) : Nat :=
  if !unitExists kind index then 1
  else if s.isRetired kind index then 2
  else if s.leased kind index then 3
  else if s.leaseAllowed kind index then 0 else 4

def State.leaseEnd (s : State) (kind index : Nat) : Nat :=
  if !unitExists kind index then 1
  else if s.isRetired kind index then 2
  else if ((s.leaseOf kind index).map fun l => l.state == 1 || l.state == 2).getD false then 0 else 3

/-- KIND and INDEX of a word (R376). -/
def leaseKind (w : Word) : Nat := bits w.toNat 24 8
def leaseIndex (w : Word) : Nat := bits w.toNat 0 24

/-- SR.LEASE of the issuing berth, and of the other member of its pair, names a unit (R249, R307). -/
def State.nameLease (s : State) (k i : Nat) : State :=
  let name (x : Berth) : Berth := { x with lease := some (k, i) }
  match s.me.task.bind Task.partner with
  | some (c, b) => (s.onMe name).onBerth c b name
  | none => s.onMe name

/-- LEASE.REQ (R377). -/
def semLeaseReq (f : SR2) : OpSem :=
  OpSem.once { OpSem.plain (fun s => s.predIs f.p f.n) [rK f.p, rG f.a] [(rG f.d, none)]
      (fun s =>
        let k := leaseKind (s.srcG f.a)
        let i := leaseIndex (s.srcG f.a)
        let st := s.leaseReq k i
        let s := if st = 0 then (s.startLease k i).nameLease k i else s
        s.putG f.d (.ofNat 64 st)) with
    priv := fun s => s.supOnly 0x77 }
def execLeaseReq (f : SR2) (s : State) : Host.Outcome State Fault Refusal := runSlot (.leaseReq f) (semLeaseReq f) s

/-- LEASE.END (R377): the lease ends as RETURNED. -/
def semLeaseEnd (f : SR2) : OpSem :=
  OpSem.once { OpSem.plain (fun s => s.predIs f.p f.n) [rK f.p, rG f.a] [(rG f.d, none)]
      (fun s =>
        let k := leaseKind (s.srcG f.a)
        let i := leaseIndex (s.srcG f.a)
        let st := s.leaseEnd k i
        let s := match decide (st = 0), s.leaseOf k i with
          | true, some l => s.returnUnit l 5 0
          | _, _ => s
        s.putG f.d (.ofNat 64 st)) with
    priv := fun s => s.supOnly 0x77 }
def execLeaseEnd (f : SR2) (s : State) : Host.Outcome State Fault Refusal := runSlot (.leaseEnd f) (semLeaseEnd f) s

/-! ## Scores over time (R252) -/

/-- SCORE_HOURLY_DECAY (R252): every score falls by 1, and the scores are written to the nonvolatile store; the routine
dockings that are due are requested (R254). -/
def execScoreHourlyDecay (s : State) : Host.Outcome State Fault Refusal :=
  let l := s.scores.map fun (e : Nat × Nat) => (e.1, e.2 - 1)
  .next (State.requestAgain { s with scores := l, savedScores := l })

/-- ORDERLY_SHUTDOWN (R252). -/
def execOrderlyShutdown (s : State) : Host.Outcome State Fault Refusal := .next { s with savedScores := s.scores }

/-! ## Errors (R157, R163, R234, R244, R251) -/

/-- DRAM_UNCORRECTABLE_ERROR (R163, R252): the granule's poison bit and the handles' bits are set, and the channel charged: one of the
stack that holds the address (R219). DESIGN CHOICE (log 71). -/
def execDramUncorrectableError (addr channel : Nat) (s : State) : Host.Outcome State Fault Refusal :=
  .next ((s.poison addr).raiseScore 5 (132 * stackOfAddr addr + channel % 132) 32)

/-- A corrected error counted, and the unit that detected it charged 1 (R251, R252). -/
def State.correctedError (s : State) (kind index : Nat) : State :=
  let k := kind * 2 ^ 24 + index
  { s with corrected := Map.set s.corrected k (Map.getD s.corrected k 0 + 1) }.raiseScore kind index 1

/-- CORRECTED_ERROR (R251, R252). -/
def execCorrectedError (kind index : Nat) (s : State) : Host.Outcome State Fault Refusal :=
  .next (if unitExists kind index then s.correctedError kind index else s)

/-- The request of an access or of an engine's access has left its source though it was dropped: it stands in its window (R227, R234). -/
def State.injectDropped (s : State) (i : Instr) (id : Nat) : State :=
  match i, Map.get? s.accesses id, Map.get? s.commands id with
  | .accessPerform _, some a, _ =>
    let t := if a.remote || s.target a.pa != .dram then s else s.windowSend (coreSource a.core) (s.homeSlice a.pa)
    { t with accesses := Map.set t.accesses id { a with remote := true, sent := s.packets } }
  | .engineDataLand _, _, some k => (s.landSlice k).foldl (fun (s : State) h => s.windowSend k.source h) s
  | _, _, _ => s

/-- The unit of a link: a torus link, or scale-up port q as link 192 + q (R252). -/
def linkUnit (link : Nat) : Nat × Nat := if link < 192 then (3, link) else (6, link - 192)

/-- A dropped packet counted at the quay whose input dropped it (R236); a scale-up port is no quay's input. -/
def State.countDrop (s : State) (link q : Nat) : State := if link < 192 then s.count q 4 else s

/-- PACKET_CRC_DROP (R234, R236): the first packet due that crosses the link is dropped: it is not delivered, its source's timer runs,
and it is counted at the quay whose input dropped it, that of the link's + direction where the model has no such packet. DEDUCED
(log 89). -/
def State.crcDrop (s : State) (link : Nat) : State :=
  let s := s.correctedError (linkUnit link).1 (linkUnit link).2
  match s.agenda.findSome? fun i => (s.rowOver link i).map fun x => (i, x) with
  | none => s.countDrop link (linkTarget link)
  | some (i, id, k, way) =>
    let q := ((way.getLast?).map fun o => nextQuay o.1 o.2).getD (linkTarget link)
    let sent := (Map.get? s.accesses id).isSome || (Map.get? s.commands id).isSome
    let counters := if sent then way.foldl (fun m o => addCount m o.1 o.2 k.flits) s.counters else s.counters
    (({ s with
      counters := counters
      agenda := s.agenda.filter fun j => j != i
      sentAt := Map.set s.sentAt id s.now }).injectDropped i id).countDrop link q
def execPacketCrcDrop (link : Nat) (s : State) : Host.Outcome State Fault Refusal := .next (s.crcDrop link)

/-- BERTH_STATE_UNCORRECTABLE_ERROR (R244): POISON, SUB 3, and the core's scalar sub-unit charged 32. -/
def execBerthStateUncorrectableError (core berth struct num : Nat) (s : State) : Host.Outcome State Fault Refusal :=
  .next (if (s.berth core berth).task.isNone then s.raiseScore 0 core 32
    else (s.raiseError core berth
      { code := tPoison, slot := 0, timm := 0, info := sub 3 (struct % 8 + num % 32 * 2 ^ 8) } false).raiseScore 0 core 32)

/-- L2_SCRATCHPAD_UNCORRECTABLE_ERROR (R251, R252): the data are marked, a granule through its poison bit, and the slice or
core is charged 32. -/
def execL2ScratchpadUncorrectableError (inL2 : Bool) (unit addr : Nat) (s : State) :
    Host.Outcome State Fault Refusal :=
  .next (if inL2 then (s.poison addr).raiseScore 4 unit 32
    else (s.onBlock (clusterOf unit) addr fun x => { x with mark := true }).raiseScore 0 unit 32)

/-- A request counted as resent by the source at a quay, and its number of resends. -/
def State.countResend (s : State) (id quay : Nat) : State :=
  { s.count quay 0xC with resends := Map.set s.resends id (Map.getD s.resends id 0 + 1) }

/-- An access resent, or lost after eight resends (R234); where it has been performed its request goes once more, and its reply is
answered again. -/
def State.resendAccess (s : State) (id : Nat) (a : Access) : State :=
  if 8 ≤ a.resends then s.loseAccess id a
  else
    let row : Instr := if a.done then .accessReply id a.mark
      else if a.sc && a.ticket.isNone then .ticketRequestArrive id else .accessPerform id
    let s := if a.done then s.carry a.request a.origin (s.accessEnd a) else s
    ({ s.count (clusterOf a.core) 0xC with
      accesses := Map.set s.accesses id { a with resends := a.resends + 1 } }).later row

/-- An accumulate resent, without limit; every eighth resend posts TRANSPORT_RETRY. -/
def State.resendAcc (s : State) (id : Nat) (a : Addend) : State :=
  let q := clusterOf a.core
  let s := (s.countResend id q).carry (pkAcc a.forced) (.quay q) (s.accEnd a.line)
  let n := Map.getD s.resends id 0
  let s := if n % 8 = 0 then s.postQuay q 0x0013 a.slot q n else s
  s.later (if a.decided then .acchReply id else .acchArrive id)

/-- The command whose data a message carries, and the address that its loss names (R234, R277). -/
def State.msgCommand (s : State) (m : Msg) : Option (Nat × Command × Nat) :=
  match m with
  | .xst cmd _ tag first .. =>
    (Map.get? s.commands cmd).bind fun k => match k.work with
      | .xst _ _ _ _ _ offset bankA bankB => some (cmd, k, xstBank tag bankA bankB * bankSize + offset + first)
      | _ => none
  | .coll cmd =>
    (Map.get? s.commands cmd).bind fun k => match k.work with
      | .coll j => some (cmd, k, j.dest)
      | _ => none
  | _ => none

/-- A message resent. The data of an engine command are lost after eight resends; what the table of R234 does not name is resent
without limit. DESIGN CHOICE (log 77). -/
def State.resendMsg (s : State) (id : Nat) (m : Msg) : State :=
  match m, s.msgCommand m with
  | .acc a, _ => s.resendAcc id a
  | _, some (cmd, k, addr) =>
    if 8 ≤ Map.getD s.resends id 0 then (s.received id).loseCommand cmd k addr .bulk
    else ((s.countResend id (clusterOf k.core)).carryMsg id m).later (m.row id)
  | _, none =>
    let (_, a, b) := s.msgPackets m
    ((s.countResend id (netQuays a b).1).carryMsg id m).later (m.row id)

/-- The request of an engine command resent, or lost after eight resends; its next request stands in the window in its place. -/
def State.resendCommand (s : State) (id : Nat) (k : Command) : State :=
  let n := Map.getD s.resends id 0
  let s := (s.landSlice k).foldl (fun (s : State) h => s.windowForget k.source h) s
  if n < 8 then (s.countResend id (sourceQuay k.source)).later (.engineDataLand id)
  else s.loseCommand id k (256 * ((s.runTargets k (s.run k)).head?.getD 0)) (s.landPacket k).cls

/-- TRANSPORT_RESEND (R234, R236): a request without a reply is resent, or lost. -/
def State.transportResend (s : State) (id : Nat) : State :=
  let s : State := { s with sentAt := Map.erase s.sentAt id }
  match Map.get? s.accesses id, Map.get? s.messages id, Map.get? s.commands id with
  | some a, _, _ => s.resendAccess id a
  | none, some m, _ => s.resendMsg id m
  | none, none, some k => s.resendCommand id k
  | none, none, none => s
def execTransportResend (id : Nat) (s : State) : Host.Outcome State Fault Refusal := .next (s.transportResend id)

/-- A request of which a packet was dropped goes to another package (R234). -/
def State.farRequest (s : State) (id : Nat) : Bool :=
  (s.requestAddrs id).any fun pa => match s.target pa with
    | .pod _ => true
    | _ => false

/-- The resends that their sources' timers make due (R234). -/
def State.resendTick (s : State) : State :=
  s.sentAt.foldl (fun (t : State) e =>
    if resendAfter (s.farRequest e.1) ≤ s.now - e.2 then t.later (.transportResend e.1) else t) s

/-! ## The device's timers (R254 to R256) -/

/-- The length of a lease in core cycles (R256). -/
def leaseLength (kind : Nat) : Nat :=
  match kind with
  | 3 => 2500000
  | 4 => 12500000
  | 5 => 50000000
  | 6 => 2500000
  | _ => 5000000

/-- The rows of the dry dock that time makes due. -/
def State.dockTick (s : State) : State :=
  let s := s.remapSlices
  if s.waits [0x0010, 0x0012] then s else
  s.leases.foldl (fun (t : State) l =>
    if l.state = 1 ∧ 2 < l.kind then t.later (.dockTestingStart l.kind l.index)
    else if l.state = 1 then
      let t := t.coreIdle l.index
      if 25000000 ≤ t.now - l.since then t.later (.dockWithdraw l.kind l.index) else t
    else if l.state = 2 ∧ leaseLength l.kind ≤ t.now - l.since then t.later (.dockVerdict l.kind l.index [])
    else t) s

end Sys2Proof.Machine
end

