-- ==== Sys2Proof/Machine/Host.lean ====
section
/-! DEFINITION. The event ring (R274 to R277), page-fault answers (R164, R165, R250, R280), the host's windows and action
registers (R278 to R282), power (R283, R284) and bring-up (R281, R285). -/

namespace Sys2Proof.Machine

/-! ## The event ring (R274 to R277) -/

/-- The codes of events that are dropped where no room is left (R277). -/
def droppable (code : Nat) : Bool :=
  [0x5, 0x6, 0x7, 0x8, 0xA, 0xB, 0xC, 0xD, 0xF, 0x11, 0x13, 0x14, 0x15].contains code

/-- The ring is enabled (R275). -/
def State.ringOn (s : State) : Bool :=
  s.ctrl.evqset && decide (4 ≤ s.ctrl.evqlog2.toNat) && decide (s.ctrl.evqlog2.toNat ≤ 20)

/-- The ring takes no record: it is disabled or full (R274, R275). -/
def State.ringFull (s : State) : Bool :=
  !s.ringOn || decide (2 ^ s.ctrl.evqlog2.toNat ≤ (s.ctrl.evqwr - s.ctrl.evqrd).toNat)

/-- The record of an event (R276). -/
def Event.record (e : Event) (seq : Nat) : Nat :=
  packElems 64 [seq, e.code + e.lslot % 2 ^ 8 * 2 ^ 16 + e.berth % 2 ^ 8 * 2 ^ 24 + e.core % 2 ^ 16 * 2 ^ 32,
    e.arg0 % 2 ^ 64, e.arg1 % 2 ^ 64]

/-- A record written to the slot of its stamp, and EVQWR after it (R18, R274). A completion message becomes due (R277). -/
def State.writeRecordSlot (s : State) (seq : Nat) (e : Event) : State :=
  let slot := (seq - 1) % 2 ^ s.ctrl.evqlog2.toNat
  let s := s.dieTrips true (s.ctrl.evqbase.toNat + 32 * slot) 32
  let s : State := { s with
    mem := s.mem.write (s.ctrl.evqbase.toNat + 32 * slot) 32 (e.record seq)
    ctrl := { s.ctrl with evqwr := .ofNat 64 seq } }
  if s.evqArmed && s.ctrl.evqirq.getLsbD 0 then s.later .evqCompletionMessage else s

/-- An event's stamp taken: a page fault awaits its answer from then on, in place of an older one of its berth (R164). -/
def State.stampEvent (s : State) (e : Event) : State :=
  let seq := s.seq + 1
  let s : State := { s with seq := seq }
  if e.code = 4 then
    { s with faults := (s.faults.filter fun (f : PageFault) =>
        !(f.command == e.command && (e.command.isSome || (f.core == e.core && f.berth == e.berth)))) ++
      [{ seq := seq, core := e.core, berth := e.berth, command := e.command, va := e.arg0 }] }
  else s

/-- The agents that an event has stalled go on (R274). -/
def State.resumeAgent (s : State) (e : Event) : State :=
  if e.code = 1 ∨ e.code = 2 ∨ e.code = 3 then
    s.launches.foldl (fun (s : State) l => s.later (.launchComplete l.1)) (s.later .launchAdmission)
  else s

/-- The held records that the ring has room for, in stamp order; at most n of them. -/
def State.drainRing (s : State) : Nat → State
  | 0 => s
  | n + 1 =>
    match s.stamped with
    | [] => s
    | (seq, e) :: rest =>
      if s.ringFull then s
      else (({ s with stamped := rest } : State).writeRecordSlot seq e).drainRing n

/-- EVENT_ACCEPT (R274, R275): the arbiter stamps the oldest event, and writes it or holds it; where it holds 256 already, an
event of a droppable code is dropped and counted. DEDUCED (log 57). -/
def State.acceptEvent (s : State) : State :=
  match s.raised with
  | [] => s
  | e :: rest =>
    if !s.ringFull && s.stamped.isEmpty then
      let s := ({ s with raised := rest } : State).stampEvent e
      (s.writeRecordSlot s.seq e).resumeAgent e
    else if s.stamped.length < 256 then
      let s := ({ s with raised := rest } : State).stampEvent e
      ({ s with stamped := s.stamped ++ [(s.seq, e)] } : State).resumeAgent e
    else
      match s.raised.find? fun x => droppable x.code with
      | some x => { s with raised := s.raised.erase x, ctrl := { s.ctrl with evqdrops := s.ctrl.evqdrops + 1 } }
      | none => s
def execEventAccept (s : State) : Host.Outcome State Fault Refusal := .next s.acceptEvent

/-- EVQ_COMPLETION_MESSAGE (R277), while the ring is enabled. The delay is time of the host link. DESIGN CHOICE (log 55). -/
def execEvqCompletionMessage (s : State) : Host.Outcome State Fault Refusal :=
  .next (if s.ringOn && s.evqArmed && s.ctrl.evqirq.getLsbD 0 && s.ctrl.evqwr != s.ctrl.evqrd then
      { s with evqArmed := false, evqMessages := s.evqMessages + 1 }
    else s)

/-- The held records written, and the events that wait at their sources due again (R274, R275). -/
def State.ringOpened (s : State) : State :=
  let s := s.drainRing s.stamped.length
  s.raised.foldl (fun (s : State) _ => s.later .eventAccept) s

/-- EVQRD_WRITE (R274, R277). -/
def State.writeEvqrd (s : State) (v : Word) : State :=
  let s : State := { s with ctrl := { s.ctrl with evqrd := v }, evqArmed := true }
  let s := s.ringOpened
  if s.ctrl.evqwr = v then s else s.later .evqCompletionMessage
def execEvqrdWrite (value : Word) (s : State) : Host.Outcome State Fault Refusal := .next (s.writeEvqrd value)

/-- No launch is admitted: registers marked "RW, idle" accept writes (R279). -/
def State.idle (s : State) : Bool := s.launches.isEmpty

/-- DEVICE_READY posted once the ring is configured (R285). -/
def State.postReady (s : State) : State :=
  if s.readyDue && s.ringOn then
    ({ s with readyDue := false } : State).postDevice 0x0017 0xFF 0x0000000156470009 Config.fwVersion.toNat
  else s

/-- The low bits of an address that its alignment leaves zero cleared. DEDUCED (log 26). -/
def alignDown (n : Nat) (w : Word) : Word := .ofNat 64 (w.toNat / 2 ^ n * 2 ^ n)

/-- EVQBASE and EVQLOG2 written (R275, R279). -/
def State.setRingBase (s : State) (base : Word) : State :=
  if s.idle then ({ s with ctrl := { s.ctrl with evqset := true, evqbase := alignDown 12 base } } : State).ringOpened.postReady
  else s
def State.setRingLog (s : State) (log2 : Word) : State :=
  if s.idle then
    ({ s with ctrl := { s.ctrl with evqlog2 := .ofNat 64 (log2.toNat % 32) } } : State).ringOpened.postReady
  else s

/-- EVQ_RING_ENABLE (R275). -/
def execEvqRingEnable (base log2 : Word) (s : State) : Host.Outcome State Fault Refusal :=
  .next ((s.setRingBase base).setRingLog log2)

/-! ## Page faults (R164, R165, R250, R280) -/

/-- The results of a berth's earlier bundles are written, but for appends that its own open segment holds back. -/
def State.earlierDone (s : State) (c b : Nat) : Bool :=
  (s.berth c b).outstanding.isEmpty &&
    (s.writebacks.all fun e => !(e.2.core == c && e.2.berth == b) || s.heldBack e.2) &&
    ((s.core c).half0 ++ (s.core c).half1).all fun m => m.berth != b

/-- PAGE_FAULT_PARK (R164): the results of earlier bundles are written, and then the berth parks and its event is posted. -/
def State.parkBerth (s : State) (c b h : Nat) : State :=
  let x := s.berth c b
  match x.park with
  | some (.pageFault n w t) =>
    if n ≠ h ∨ x.status = .parked ∨ x.status = .free ∨ !s.earlierDone c b then s
    else
      (s.onBerth c b fun x => { x with status := .parked }).post
        { code := 0x0004, lslot := x.slot, berth := b, core := c, arg0 := t.info, arg1 := one w * 2, command := none }
  | _ => s
def execPageFaultPark (core berth handle : Nat) (s : State) : Host.Outcome State Fault Refusal :=
  .next (s.parkBerth core berth handle)

/-- A berth parked on a page fault goes on: its handle is translated again (R164), or the trap is due at its bundle, to the other member
of its pair at the same bundle (R250). -/
def State.answerBerth (s : State) (c b : Nat) (own : Bool) (fail : Option Trap) : State :=
  let x := s.berth c b
  let s : State := { s with faults := s.faults.filter fun (f : PageFault) =>
      !(f.command.isNone && f.core == c && f.berth == b) }
  match x.park, fail with
  | some (.pageFault ..), some t => s.onBerth c b fun x =>
    { x with status := .ready, park := some (if own then .failed t else .partnerFailed t) }
  | some (.pageFault h _ _), none =>
    let hd := vget x.regs.h h Handle.zero
    let s := s.onBerth c b fun x =>
      { x with status := .ready, park := none, regs := x.regs.putH h { hd with ready := false, valid := true } }
    let w : PendingWalk := { core := c, berth := b, handle := h, va := hd.vpn.toNat * 2 ^ 16 }
    ({ s with walks := s.walks ++ [w] } : State).later (.xlatWalkComplete c b h)
  | _, some t => s.onBerth c b fun x =>
    { x with park := some (if own then .failed t else .partnerFailed t), status := if x.status = .parked then .ready else x.status }
  | _, none => s

/-- The trap of the page fault that a berth is parked on. -/
def Berth.faultTrap (x : Berth) : Option Trap :=
  match x.park with
  | some (.pageFault _ _ t) => some t
  | _ => none

/-- An answer to a page fault (R164, R165, R280), which applies to both members of a pair (R250). -/
def State.answerFault (s : State) (seq : Nat) (retry : Bool) : State :=
  match s.faults.find? fun f => f.seq == seq with
  | none => s
  | some f =>
    let s : State := { s with faults := s.faults.erase f }
    match f.command with
    | some id =>
      match Map.get? s.commands id with
      | none => s
      | some k =>
        if !k.suspended then s
        else if retry then (s.setCommand id { k with suspended := false }).later (.engineGranuleCheck id)
        else s.stopCommand id { k with suspended := false } tPageFault
    | none =>
      match (s.berth f.core f.berth).faultTrap with
      | none => s
      | some t =>
        let fail := if retry then none else some t
        let s' := s.answerBerth f.core f.berth true fail
        match (s.berth f.core f.berth).partner with
        | some (d, e) => s'.answerBerth d e false fail
        | none => s'
def execPfreplyRetry (seq : Nat) (s : State) : Host.Outcome State Fault Refusal := .next (s.answerFault seq true)
def execPfreplyFail (seq : Nat) (s : State) : Host.Outcome State Fault Refusal := .next (s.answerFault seq false)

/-! ## Action registers (R152, R161, R163, R280) -/

/-- The revocation that the host asked for last is not complete (R161, R280). DEDUCED (log 58). -/
def State.revokeBusy (s : State) : Bool := (s.ctrl.revoking.map fun va => !s.revokedQuiet va).getD false

/-- HOST_REVOKE: ignored while one is in progress. -/
def State.hostRevoke (s : State) (va : Nat) : State :=
  if s.revokeBusy then s
  else if !(s.walk va).hasLeaf then s
  else ({ s with ctrl := { s.ctrl with revoking := some va } } : State).revoke va
def execHostRevoke (va : Word) (s : State) : Host.Outcome State Fault Refusal := .next (s.hostRevoke va.toNat)

/-- PINCLR: every pin count of the slice is zero. -/
def State.clearPins (s : State) (slice : Nat) : State :=
  { s with pins := s.pins.filter fun (e : Nat × Nat) => s.homeSlice (256 * e.1) != slice }
def execPinclr (slice : Nat) (s : State) : Host.Outcome State Fault Refusal := .next (s.clearPins (slice % 128))

/-- POISONCLR: the poison bit of the granule is cleared. -/
def State.clearPoison (s : State) (pa : Nat) : State := if s.target pa = .dram then s.putPoison pa false else s
def execPoisonclr (addr : Word) (s : State) : Host.Outcome State Fault Refusal := .next (s.clearPoison addr.toNat)

/-! ## The mailbox (R281, R282) -/

/-- n bytes of the mailbox written, at an offset in CTRL. -/
def State.putMbox (s : State) (off n v : Nat) : State := { s with ctrl := { s.ctrl with mbox := s.ctrl.mbox.write off n v } }

/-- The 0x60 bytes of an attestation report that are signed. -/
def State.reportBody (s : State) (nonce : Nat) : BitVec 768 :=
  .ofNat 768 (0x0001 + 0x00A0 * 2 ^ 16 + Config.serial.toNat * 2 ^ (8 * 0x08) + Config.measurement.toNat * 2 ^ (8 * 0x10) +
    nonce % 2 ^ 256 * 2 ^ (8 * 0x30) + Config.fwVersion.toNat * 2 ^ (8 * 0x50) + s.capgen.toNat * 2 ^ (8 * 0x54) +
    s.seconds % 2 ^ 64 * 2 ^ (8 * 0x58))

/-- MSTAT (R282): 1 while a command is in progress. -/
def State.mstat (s : State) : Nat := s.ctrl.mbox.read 0x204 4
def State.setMstat (s : State) (v : Nat) : State := s.putMbox 0x204 4 v

/-- MBOX_ATTEST: CMD 1 with a nonce returns the report, signed. -/
def State.attest (s : State) (nonce : Nat) : State :=
  let body := s.reportBody nonce
  let report := body.toNat + (Config.signature body s.stamp).toNat * 2 ^ (8 * 0x60)
  (((s.bump.putMbox 0x210 32 nonce).putMbox 0x200 4 1).putMbox 0x240 160 report).setMstat 2
def execMboxAttest (nonce : Nat) (s : State) : Host.Outcome State Fault Refusal := .next (s.attest nonce)

/-- MBOX_PUBLIC_KEY: CMD 2 returns the public key. -/
def State.keyReply (s : State) : State :=
  ((s.putMbox 0x200 4 2).putMbox 0x240 64 Config.publicKey.toNat).setMstat 2
def execMboxPublicKey (s : State) : Host.Outcome State Fault Refusal := .next s.keyReply

/-- MBOX_ERROR: another command, or one given while the mailbox is busy. -/
def State.mboxFail (s : State) (cmd : Nat) : State := (s.putMbox 0x200 4 cmd).setMstat 3
def execMboxError (cmd : Nat) (s : State) : Host.Outcome State Fault Refusal := .next (s.mboxFail cmd)

/-- A write of CMD (R282): the mailbox is busy until the device has performed the command, which is due with the input as it is
now; a write of CMD while it is busy ends in MSTAT 3, and the command in progress still ends. DESIGN CHOICE (log 88). -/
def State.mboxCommand (s : State) (cmd : Nat) : State :=
  if s.mstat = 1 then s.later (.mboxError cmd)
  else
    let t := (s.putMbox 0x200 4 cmd).setMstat 1
    if cmd = 1 then t.later (.mboxAttest (s.ctrl.mbox.read 0x210 32))
    else if cmd = 2 then t.later .mboxPublicKey
    else t.later (.mboxError cmd)

/-! ## The APERTURE window (R278) -/

/-- The physical address behind an offset of the window, and whether n bytes there can be accessed. -/
def State.aperture (s : State) (off : Nat) : Nat := s.ctrl.apbase.toNat + off
def State.apertureOpen (s : State) (off n : Nat) : Bool := decide (off + n ≤ 2 ^ 36) && s.target (s.aperture off) != .reserved

/-- The local lines of n bytes at a physical address. -/
def State.hostLines (s : State) (pa n : Nat) : List Nat := (unitsOf 256 pa n).filter fun i => s.target (256 * i) == .dram

/-- The slice of some lines for which the window of the I/O-die port at its attached quay is full (R18, R227). -/
def State.hostShut (s : State) (l : List Nat) : Option Nat :=
  (l.map fun i => s.homeSlice (256 * i)).find? fun h => !s.windowOpen (portSource (attachedQuay h)) h

/-- The request of the host for a local line and its reply, between the I/O die and the home slice (R215, R227, R278). -/
def State.hostTrip (s : State) (write : Bool) (pa n i : Nat) : State :=
  let h := s.homeSlice (256 * i)
  let k := (sectorsHit i pa n).length
  s.sliceTrip (portSource (attachedQuay h)) .ioDie h (if write then pkWrite k else pkRequest)
    (if write then pkAnswer else if k ≤ 1 then pkSector else pkLine)

/-- The uncached access of the host to a line at its home slice (R278): in L2 where the line is there; elsewhere in DRAM without
allocation, where its timestamps join the slice's floor, or those of the memory-side unit (R149, R153, R166, R218). -/
def State.hostLine (s : State) (write : Bool) (pa n i : Nat) : State :=
  let ms := (Map.get? s.uncached i).isSome && (Map.get? s.lines i).isNone
  let x := stampUnit write (accessTs write 0 [s.lineTs ms i]) (s.lineTs ms i)
  match s.lineKind ms i with
  | .cached =>
    let h := s.homeSlice (256 * i)
    let t : State := if (Map.get? s.lines i).isSome then { s with lines := Map.set s.lines i x }
      else { s with floors := Map.set s.floors h (max (Map.getD s.floors h 0) (max x.1 x.2)) }
    t.useSectors write i (sectorsHit i pa n) (sectorsWhole i pa n)
  | .uncached => { s with uncached := Map.set s.uncached i x }
  | .untimed => s

/-- The lines of an access of the host accessed in turn. -/
def State.hostAccess (s : State) (write : Bool) (pa n : Nat) : State :=
  (unitsOf 256 pa n).foldl (fun (s : State) i =>
    (if s.target (256 * i) = .dram then s.hostTrip write pa n i else s).hostLine write pa n i) s

/-- An access of the host goes on, waits for a line's home to move (R217) or for its window (R227), or is lost where no port reaches
its package (R232, R234). -/
def State.hostGate (s : State) (row : Instr) (pa n : Nat) (go lost : State → State) : State :=
  let l := s.hostLines pa n
  if s.unreachable pa then lost (s.postDevice 0x0014 0xFF pa PacketClass.req.code)
  else if l.any fun i => s.moving (256 * i) then { s with stalledRows := s.stalledRows ++ [row] }
  else
    match s.hostShut l with
    | some h => s.windowWait (portSource (attachedQuay h)) h row
    | none => go s

/-- APERTURE_READ: a read at the line's home slice; a reserved range reads zero; the bytes of a lost read are free (log 98). -/
def State.apertureRead (s : State) (off n : Nat) : State :=
  let pa := s.aperture off
  if s.apertureOpen off n then
    s.hostGate (.apertureRead off n) pa n (fun s => { s.hostAccess false pa n with hostReply := .ofNat 64 (s.mem.read pa n) })
      fun s => { s with hostReply := Config.lostData s.packets }
  else { s with hostReply := 0 }
def execApertureRead (offset size : Nat) (s : State) : Host.Outcome State Fault Refusal := .next (s.apertureRead offset size)

/-- APERTURE_WRITE: a write at the line's home slice; one to a reserved range is ignored. -/
def State.apertureWrite (s : State) (off n v : Nat) : State :=
  let pa := s.aperture off
  if s.apertureOpen off n then s.hostGate (.apertureWrite off n v) pa n (fun s => (s.hostAccess true pa n).putMem pa n v) id else s
def execApertureWrite (offset size value : Nat) (s : State) : Host.Outcome State Fault Refusal :=
  .next (s.apertureWrite offset size value)

/-! ## The CTRL window (R279, R280) -/

/-- LCTRL: a slot and an action. -/
def State.lctrl (s : State) (v : Word) : State :=
  let slot := bits v.toNat 0 4
  match bits v.toNat 8 2 with
  | 1 => s.onLaunch slot fun (l : Launch) => { l with preempted := true }
  | 2 => (s.onLaunch slot fun (l : Launch) => { l with preempted := false }).later (.walkerOffer slot)
  | 3 => s.terminate slot
  | _ => s

/-- PFREPLY: an answer and the SEQ that it concerns. -/
def State.pfreply (s : State) (v : Word) : State :=
  match bits v.toNat 62 2 with
  | 1 => s.answerFault (bits v.toNat 0 62) true
  | 2 => s.answerFault (bits v.toNat 0 62) false
  | _ => s

/-- The CTRL registers changed by a function; of the registers marked idle only while no launch is admitted. -/
def State.putCtrl (s : State) (idle : Bool) (f : Ctrl → Ctrl) : State :=
  if idle && !s.idle then s else { s with ctrl := f s.ctrl }

/-- A write of eight bytes to CTRL (R279). EVQIRQ.EN, set while EVQWR is already away from EVQRD, raises no message before the next
record or write of EVQRD (R277). DESIGN CHOICE (log 55). -/
def State.ctrlWrite (s : State) (off : Nat) (v : Word) : State :=
  match off with
  | 0x010 => s.launchWrite v
  | 0x020 => s.setRingBase v
  | 0x028 => s.setRingLog v
  | 0x038 => s.writeEvqrd v
  | 0x048 => s.putCtrl false fun c => { c with evqirq := v &&& 0xFFFF0001 }
  | 0x100 => s.putCtrl true fun c => { c with xroot := alignDown 16 v }
  | 0x108 => s.putCtrl true fun c => { c with spilltab := alignDown 12 v }
  | 0x110 => s.putCtrl true fun c => { c with poisonmap := alignDown 16 v }
  | 0x118 => s.putCtrl false fun c => { c with alloctab := alignDown 4 v }
  | 0x120 => s.putCtrl true fun c => { c with pkgnum := v &&& 0x1FF }
  | 0x128 => if 1 ≤ v.toNat ∧ v.toNat ≤ 168 then s.putCtrl false fun c => { c with dockhrs := v } else s
  | 0x130 => s.pfreply v
  | 0x138 => s.hostRevoke v.toNat
  | 0x140 => s.lctrl v
  | 0x148 => s.clearPins (bits v.toNat 0 7)
  | 0x150 => s.clearPoison v.toNat
  | 0x158 => s.unlessHeld [0x10, 0x12] (.banddone v.toNat) (s.bandDone v.toNat)
  | 0x160 => s.hostRetire (bits v.toNat 24 8) (bits v.toNat 0 24)
  | 0x168 => s.putCtrl false fun c => { c with apbase := alignDown 36 v }
  | 0x170 => if 1000 ≤ v.toNat ∧ v.toNat ≤ 3400 then s.putCtrl false fun c => { c with pcap := v } else s
  | 0x200 => s.mboxCommand (bits v.toNat 0 32)
  | _ =>
    if 0x208 ≤ off ∧ off + 8 ≤ 0x300 then s.putMbox off 8 v.toNat
    else if 0x1000 ≤ off ∧ off ≤ 0x3FF8 ∧ off % 8 = 0 then
      let c := (off - 0x1000) / 8
      s.setCore c { s.core c with tvec := v &&& 0x7FF }
    else s
def execCtrlRegisterWrite (offset : Nat) (value : Word) (s : State) : Host.Outcome State Fault Refusal :=
  .next (s.ctrlWrite offset value)

/-- The slots that hold admitted launches. -/
def State.slotMask (s : State) : Nat := packElems 1 ((List.range 16).map fun n => one (s.launch n).isSome)

/-- A read of eight bytes of CTRL (R279). -/
def State.ctrlRead (s : State) (off : Nat) : Word :=
  match off with
  | 0x000 => 0x0000000156470009
  | 0x008 => .ofNat 64 (one s.ctrl.ready + 2 * one s.ctrl.measured + 4 * one s.ctrl.fwerr + s.launches.length * 2 ^ 16)
  | 0x018 => .ofNat 64 (s.fifo.length + s.slotMask * 2 ^ 16)
  | 0x020 => s.ctrl.evqbase
  | 0x028 => s.ctrl.evqlog2
  | 0x030 => s.ctrl.evqwr
  | 0x038 => s.ctrl.evqrd
  | 0x040 => s.ctrl.evqdrops
  | 0x048 => s.ctrl.evqirq
  | 0x100 => s.ctrl.xroot
  | 0x108 => s.ctrl.spilltab
  | 0x110 => s.ctrl.poisonmap
  | 0x118 => s.ctrl.alloctab
  | 0x120 => s.ctrl.pkgnum
  | 0x128 => s.ctrl.dockhrs
  | 0x138 => .ofNat 64 (one s.revokeBusy)
  | 0x168 => s.ctrl.apbase
  | 0x170 => s.ctrl.pcap
  | 0x178 => .ofNat 64 s.cap
  | 0x180 => s.capgen.setWidth 64
  | _ =>
    if 0x200 ≤ off ∧ off + 8 ≤ 0x300 then .ofNat 64 (s.ctrl.mbox.read off 8)
    else if 0x1000 ≤ off ∧ off ≤ 0x3FF8 ∧ off % 8 = 0 then (s.core ((off - 0x1000) / 8)).tvec
    else 0

/-! ## Power (R27, R283, R284) -/

/-- An island. -/
def State.island (s : State) (i : Nat) : Island := Map.getD s.islands i Island.reset

/-- The budgets that islands 0 to 23 are granted, in order, of a budget: the requests, as temperature limits them, where
their sum fits; free values within the requests and the budget otherwise. -/
def State.grants (s : State) (fits : Bool) : List (Nat × Nat) → Nat → List Nat
  | [], _ => []
  | (i, r) :: l, left =>
    let g := if fits then r else min (min r left) (Config.freeGrant s.now i)
    g :: s.grants fits l (left - g)

/-- POWER_ARBITRATION (R283). -/
def State.arbitrate (s : State) (requests : List Nat) : State :=
  let want := (List.range 24).map fun i => (i, requests.getD i 0 / min 2 (s.island i).heat)
  let budget := s.ctrl.pcap.toNat - Config.ioShare
  let g := s.grants (decide ((want.map Prod.snd).foldl (· + ·) 0 ≤ budget)) want budget
  let s := (List.range 24).foldl (fun (s : State) i =>
    let x := s.island i
    let below := g.getD i 0 < requests.getD i 0
    let n := if below then x.capped + 1 else 0
    let y := { x with grant := g.getD i 0, request := requests.getD i 0, capped := n }
    { s with islands := Map.set s.islands i y }) s
  let due := (List.range 24).filter fun i =>
    decide (1000 ≤ (s.island i).capped) && ((s.island i).posted.map fun t => decide (2500000000 ≤ s.now - t)).getD true
  if due.isEmpty then s
  else
    let s := s.postDevice 0x0015 0xFF (packElems 1 ((List.range 24).map fun i => one (due.contains i)))
      (Config.freeDraw s.now)
    due.foldl (fun (s : State) i =>
      let x := { s.island i with posted := some s.now }
      { s with islands := Map.set s.islands i x }) s
def execPowerArbitration (requests : List Nat) (s : State) : Host.Outcome State Fault Refusal :=
  .next (s.arbitrate requests)

/-- A THERMAL event of an island waits to be accepted: the island's sensor, which posted it, stalls (R274). -/
def State.heatWaits (s : State) (i : Nat) : Bool := s.raised.any fun e => e.code == 0x16 && e.arg0 == i

/-- THERMAL_THRESHOLD (R284). -/
def State.thermal (s : State) (i celsius : Nat) : State :=
  if 120 ≤ celsius then { s with off := true }
  else
    let x := s.island i
    let heat := if 110 ≤ celsius then 4 else if 100 ≤ celsius then 2 else 1
    let y := { x with heat := heat }
    let s : State := { s with islands := Map.set s.islands i y }
    if heat = 4 ∧ x.heat ≠ 4 then s.postDevice 0x0016 0xFF i celsius else s
def execThermalThreshold (island celsius : Nat) (s : State) : Host.Outcome State Fault Refusal :=
  .next (if celsius < 120 && s.heatWaits island then
      { s with stalledRows := s.stalledRows ++ [.thermalThreshold island celsius] }
    else s.thermal island celsius)

/-- An island's core clock has a cycle in this nominal one: Max(1/4, grant/request) of them, spread evenly (R283); at 110 °C
1/4 of them (R284). DESIGN CHOICE (log 27). -/
def Island.ticks (x : Island) (now : Nat) : Bool :=
  let (g, r) := if x.heat = 4 ∨ 4 * x.grant < x.request then (1, 4) else (x.grant, x.request)
  decide (r ≤ g) || decide (now * g / r < (now + 1) * g / r)

/-! ## Reset and bring-up (R252, R258, R281, R285) -/

/-- POWER_ON_RESET (R252, R258, R281, R285): the machine after reset, with DRAM as it was, the retirement records and the
scores reloaded, the retired units out of service, and the firmware measured. DEDUCED (log 56). -/
def State.powerOn (s : State) : State :=
  let r := s.records
  let dead (kinds : List Nat) : List Nat := ((r.filter fun x => kinds.contains x.kind).map Record.index).dedup
  let gone : Core := { Core.reset with service := .retired }
  let cores := (dead [0, 1, 2]).foldl (fun (m : Map Core) c => Map.set m c gone) []
  let leases := r.map fun (x : Record) =>
    ({ kind := x.kind, index := x.index, state := 7, score := x.score, since := 0, docked := 0 } : Lease)
  let ctrl : Ctrl := { Ctrl.reset with measured := true }
  let last := (r.map fun (x : Record) => BitVec.ofNat 32 x.capgen).getLast?.getD 0
  let s' : State := { State.reset with
    mem := s.mem
    records := r
    scores := s.savedScores
    savedScores := s.savedScores
    seconds := s.seconds
    capgen := last
    spares := sparesOf r []
    leases := leases
    cores := cores
    ctrl := ctrl }
  s'.remapSlices
def execPowerOnReset (s : State) : Host.Outcome State Fault Refusal := .next s.powerOn

/-- FIRMWARE_READY (R281, R285): units that fail training are retired with CAUSE 0x03, each in a row of its own, for its event may wait
to be accepted (R274), and then READY is set; a firmware that does not start sets FWERR. -/
def State.firmwareReady (s : State) (failed : List (Nat × Nat)) (starts : Bool) : State :=
  if s.ctrl.ready || s.ctrl.fwerr then s
  else if !starts then { s with ctrl := { s.ctrl with fwerr := true } }
  else
    match failed.filter fun x => x.1 == 3 || x.1 == 5 || x.1 == 6 with
    | x :: rest => (s.retireUnit x.1 x.2 3 noRun).later (.firmwareReady rest starts)
    | [] => ({ s with ctrl := { s.ctrl with ready := true }, readyDue := true } : State).postReady
def execFirmwareReady (failed : List (Nat × Nat)) (starts : Bool) (s : State) : Host.Outcome State Fault Refusal :=
  .next (s.unlessHeld [0x10, 0x12, 0x17] (.firmwareReady failed starts) (s.firmwareReady failed starts))

end Sys2Proof.Machine
end

