-- ==== Sys2Proof/Machine/Vector.lean ====
section
/-! DEFINITION. The vector cascade: one meaning per V-stage operation (R295 to R297, R323, R329, R344 to
R346, R356 to R361, R364, R365, R371, R372, R381, R400, R407, R414). -/

namespace Sys2Proof.Machine

/-- What a stage computes from: its input and result formats (type codes, R120, R345), its rounding mode, the
rnd/cond field, its lanes, the select latch, and the inputs of the stage before it (R359). -/
structure StageIn where
  ty : Nat
  out : Nat
  mode : Rnd
  cond : Nat
  a : List Nat
  b : List Nat
  vsel : BitVec 64
  prevA : List Nat
  prevB : List Nat
  deriving DecidableEq, Repr

/-- What a stage yields: its lanes, its flags, and the select latch (R360). -/
structure StageOut where
  lanes : List Nat
  flags : BitVec 7
  vsel : Option (BitVec 64)
  deriving DecidableEq, Repr

/-- The lanes and flags of a stage that leaves the select latch. -/
def StageOut.of (r : List Nat × BitVec 7) : StageOut := { lanes := r.1, flags := r.2, vsel := none }

/-- Lanes moved without arithmetic. -/
def StageOut.moved (l : List Nat) : StageOut := { lanes := l, flags := 0, vsel := none }

/-- The rounding mode of a stage (R123): the field's for the owner, rn for the other stages of a chain that
has an owner, and the field's in a chain without one. -/
def stageMode (w : VSlot) (st : VStage) : Rnd :=
  match w.owner with
  | none => Rnd.ofCode w.rnd.toNat
  | some c => if c = st then Rnd.ofCode w.rnd.toNat else .rn

/-- The value that a stage receives first: operand A, ya or yb of the same chain (R295). -/
def State.stageFirst (s : State) (w : VSlot) (st : VStage) : List Nat :=
  match st with
  | .va => s.vOperand (w.stageFormat .va) w.srcA.toNat
  | .vb => lanesOf (w.stageFormat .vb) s.me.ya
  | .vc => lanesOf (w.stageFormat .vc) s.me.yb

/-- The inputs of a stage. -/
def State.stageIn (s : State) (w : VSlot) (st : VStage) : StageIn :=
  let ty := w.stageFormat st
  { ty := ty
    out := if vConv (w.op st) then w.ty.toNat else ty
    mode := stageMode w st
    cond := w.rnd.toNat
    a := s.stageFirst w st
    b := if w.readsSecond st then s.vOperand ty (w.second st) else []
    vsel := s.me.vsel
    prevA := lanesOf ty s.iss.inA
    prevB := lanesOf ty s.iss.inB }

/-- Whether the stage is an FMUL whose product feeds a fused stage, and so raises no flag (R359). -/
def feedsFused (w : VSlot) (st : VStage) : Bool :=
  match st with
  | .va => w.opA.toNat == 3 && (w.opB.toNat == 4 || w.opB.toNat == 5)
  | .vb => w.opB.toNat == 3 && (w.opC.toNat == 4 || w.opC.toNat == 5)
  | .vc => false

/-- A stage's output in the berth's bypass register (R31, R295). -/
def Berth.putStage (b : Berth) (st : VStage) (x : BitVec 1024) : Berth :=
  match st with
  | .va => { b with ya := x }
  | .vb => { b with yb := x }
  | .vc => { b with yc := x }

/-- The tile and row of an accumulator-row byte (R295). -/
def accByte (o : Nat) : Nat × Nat := (o / 32 % 2, o % 32)

/-- The end of a chain: its result goes to the destination, and its flags are merged as it is written (R145,
R295, R297). -/
def State.finishChain (s : State) (w : VSlot) : State :=
  let r := s.me.yc.toNat
  if w.dst.toNat < 4 then s.appendEntry w.dst.toNat r onesSideband 1 s.iss.chainFlags
  else if w.dst = 5 then
    s.sendResult { s.flagsOnly s.iss.chainFlags with bytes := r, accRow := some (accByte w.srcD.toNat) }
  else s.sendResult (s.flagsOnly s.iss.chainFlags)

/-- A stage performed: its output, its flags, the select latch and, after VC, the end of the chain. A slot that uses
accumulator rows takes hold of the engine first (R297). -/
def State.doStage (s : State) (w : VSlot) (st : VStage) (f : StageIn → StageOut) : State :=
  let s := if w.usesAcc then s.takeEngine else s
  let i := s.stageIn w st
  let r := f i
  let old := if st = .va then 0 else s.iss.chainFlags
  let fl := if feedsFused w st then 0 else r.flags
  let s := s.onMe fun b =>
    { b.putStage st (ofLanes i.out r.lanes) with vsel := r.vsel.getD b.vsel }
  let s := { s with iss := { s.iss with
    inA := ofLanes i.ty i.a, inB := ofLanes i.ty i.b, chainFlags := old ||| fl } }
  match st with
  | .vc => s.finishChain w
  | _ => s

/-- The checks of one operand byte: of a queue entry its size and distance (R89, R90), of an accumulator row
the engine and the operations queued at its half-array (R32, R297). -/
def State.operandCheck (s : State) (o : Nat) : Verdict :=
  if o < 0x80 then s.sourceCheck ⟨o / 32, o % 32⟩ 128
  else if 0xC0 ≤ o then s.engineFree.andThen (await (s.myCore.halfQ (accByte o).1).isEmpty)
  else .pass

/-- The operand bytes that a stage reads from the slot. -/
def stageOperands (w : VSlot) (st : VStage) : List Nat :=
  (if st = .va then [w.srcA.toNat] else []) ++ (if w.readsSecond st then [w.second st] else [])

/-- The checks of a stage: its operands, and for VC the destination. -/
def State.stageCheck (s : State) (w : VSlot) (st : VStage) : List Verdict :=
  (stageOperands w st).map s.operandCheck ++
    (if st = .vc then
      [if w.dst.toNat < 4 then s.appendCheck w.dst.toNat 128 else if w.dst = 5 then s.operandCheck w.srcD.toNat else .pass]
     else [])

/-- A stage of the cascade as an operation of the V slot. -/
def vStageSem (w : VSlot) (st : VStage) (f : StageIn → StageOut) : OpSem :=
  { pred := fun s => s.predIs w.p w.n
    reads := rK w.p :: ((stageOperands w st).filter fun o => decide (0x80 ≤ o) && decide (o < 0xA0)).map
      fun o => (0, o - 0x80)
    writes := []
    priv := fun _ => none
    check := fun s => s.stageCheck w st
    sources := fun _ => ((stageOperands w st).filter fun o => decide (o < 0x80)).map fun o => ⟨o / 32, o % 32⟩
    appends := fun _ => if st = .vc ∧ w.dst.toNat < 4 then [⟨w.dst.toNat, 1⟩] else []
    effect := fun s => s.doStage w st f }

/-- The floating format of a stage's lanes. -/
def StageIn.fmt (i : StageIn) : FloatFmt := laneFloat i.ty

/-- A comparison's lanes: all ones where it holds, and the select latch (R360, R372). -/
def compared (ty : Nat) (l : List (Bool × BitVec 7)) : StageOut :=
  { lanes := l.map fun t => if t.1 then 2 ^ laneWidth ty - 1 else 0
    flags := l.foldl (fun f t => f ||| t.2) 0
    vsel := some (.ofNat 64 (packElems 1 (l.map fun t => if t.1 then 1 else 0))) }

/-- The lanes of the first input where the select latch is set, else of the second (R361, R371). -/
def selected (v : BitVec 64) (a b : List Nat) : List Nat :=
  (List.range a.length).map fun i => if v.getLsbD i then laneAt a i else laneAt b i

/-- The combine of RMAX and RMIN (R414). -/
def minMaxCombine (i : StageIn) (isMax : Bool) (x y : Nat) : Result :=
  if i.ty = 3 then laneInt (if isMax then 0x1D else 0x1C) x y else laneMinMax i.fmt isMax x y

/-- The combine of RSUM (R414). -/
def sumCombine (i : StageIn) (x y : Nat) : Result :=
  if i.ty = 3 then laneInt 0x18 x y else laneAdd i.fmt i.mode x y

/-- PASS (R400). -/
def stagePass (i : StageIn) : StageOut := .moved i.a
def semPass (v : VStage) (w : VSlot) : OpSem := vStageSem w v stagePass
def execPass (v : VStage) (w : VSlot) (s : State) : Host.Outcome State Fault Refusal :=
  runSlot (.pass_ v w) (semPass v w) s

/-- FADD (R358). -/
def stageFadd (i : StageIn) : StageOut := .of (zipLanes (laneAdd i.fmt i.mode) i.a i.b)
def semFadd (v : VStage) (w : VSlot) : OpSem := vStageSem w v stageFadd
def execFadd (v : VStage) (w : VSlot) (s : State) : Host.Outcome State Fault Refusal :=
  runSlot (.fadd v w) (semFadd v w) s

/-- FSUB (R358). -/
def stageFsub (i : StageIn) : StageOut := .of (zipLanes (laneSub i.fmt i.mode) i.a i.b)
def semFsub (v : VStage) (w : VSlot) : OpSem := vStageSem w v stageFsub
def execFsub (v : VStage) (w : VSlot) (s : State) : Host.Outcome State Fault Refusal :=
  runSlot (.fsub v w) (semFsub v w) s

/-- FMUL (R358). -/
def stageFmul (i : StageIn) : StageOut := .of (zipLanes (laneMul i.fmt i.mode) i.a i.b)
def semFmul (v : VStage) (w : VSlot) : OpSem := vStageSem w v stageFmul
def execFmul (v : VStage) (w : VSlot) (s : State) : Host.Outcome State Fault Refusal :=
  runSlot (.fmul v w) (semFmul v w) s

/-- FADDF (R359): the exact product of the FMUL before it, plus its second input, rounded once. -/
def stageFaddf (i : StageIn) : StageOut := .of (collect (List.zipWith (fun (x : Nat × Nat) c => laneAddf i.fmt i.mode x.1 x.2 c) (i.prevA.zip i.prevB) i.b))
def semFaddf (v : VStage) (w : VSlot) : OpSem := vStageSem w v stageFaddf
def execFaddf (v : VStage) (w : VSlot) (s : State) : Host.Outcome State Fault Refusal :=
  runSlot (.faddf v w) (semFaddf v w) s

/-- FSUBF (R359). -/
def stageFsubf (i : StageIn) : StageOut := .of (collect (List.zipWith (fun (x : Nat × Nat) c => laneSubf i.fmt i.mode x.1 x.2 c) (i.prevA.zip i.prevB) i.b))
def semFsubf (v : VStage) (w : VSlot) : OpSem := vStageSem w v stageFsubf
def execFsubf (v : VStage) (w : VSlot) (s : State) : Host.Outcome State Fault Refusal :=
  runSlot (.fsubf v w) (semFsubf v w) s

/-- FMIN (R364). -/
def stageFmin (i : StageIn) : StageOut := .of (zipLanes (laneMinMax i.fmt false) i.a i.b)
def semFmin (v : VStage) (w : VSlot) : OpSem := vStageSem w v stageFmin
def execFmin (v : VStage) (w : VSlot) (s : State) : Host.Outcome State Fault Refusal :=
  runSlot (.fmin v w) (semFmin v w) s

/-- FMAX (R364). -/
def stageFmax (i : StageIn) : StageOut := .of (zipLanes (laneMinMax i.fmt true) i.a i.b)
def semFmax (v : VStage) (w : VSlot) : OpSem := vStageSem w v stageFmax
def execFmax (v : VStage) (w : VSlot) (s : State) : Host.Outcome State Fault Refusal :=
  runSlot (.fmax v w) (semFmax v w) s

/-- FABS (R357). -/
def stageFabs (i : StageIn) : StageOut := .of (mapLanes (laneAbs i.fmt) i.a)
def semFabs (v : VStage) (w : VSlot) : OpSem := vStageSem w v stageFabs
def execFabs (v : VStage) (w : VSlot) (s : State) : Host.Outcome State Fault Refusal :=
  runSlot (.fabs v w) (semFabs v w) s

/-- FNEG (R357). -/
def stageFneg (i : StageIn) : StageOut := .of (mapLanes (laneNeg i.fmt) i.a)
def semFneg (v : VStage) (w : VSlot) : OpSem := vStageSem w v stageFneg
def execFneg (v : VStage) (w : VSlot) (s : State) : Host.Outcome State Fault Refusal :=
  runSlot (.fneg v w) (semFneg v w) s

/-- FCPS (R357). -/
def stageFcps (i : StageIn) : StageOut := .of (zipLanes (laneCps i.fmt) i.a i.b)
def semFcps (v : VStage) (w : VSlot) : OpSem := vStageSem w v stageFcps
def execFcps (v : VStage) (w : VSlot) (s : State) : Host.Outcome State Fault Refusal :=
  runSlot (.fcps v w) (semFcps v w) s

/-- FCMP (R360). -/
def stageFcmp (i : StageIn) : StageOut := compared i.ty (List.zipWith (floatCond i.fmt i.cond) i.a i.b)
def semFcmp (v : VStage) (w : VSlot) : OpSem := vStageSem w v stageFcmp
def execFcmp (v : VStage) (w : VSlot) (s : State) : Host.Outcome State Fault Refusal :=
  runSlot (.fcmp v w) (semFcmp v w) s

/-- FSEL (R361). -/
def stageFsel (i : StageIn) : StageOut := .moved (selected i.vsel i.a i.b)
def semFsel (v : VStage) (w : VSlot) : OpSem := vStageSem w v stageFsel
def execFsel (v : VStage) (w : VSlot) (s : State) : Host.Outcome State Fault Refusal :=
  runSlot (.fsel v w) (semFsel v w) s

/-- FRND (R365). -/
def stageFrnd (i : StageIn) : StageOut := .of (mapLanes (laneRnd i.fmt i.mode) i.a)
def semFrnd (v : VStage) (w : VSlot) : OpSem := vStageSem w v stageFrnd
def execFrnd (v : VStage) (w : VSlot) (s : State) : Host.Outcome State Fault Refusal :=
  runSlot (.frnd v w) (semFrnd v w) s

/-- RCP (R407). -/
def stageRcp (i : StageIn) : StageOut := .of (mapLanes (seedLane i.fmt rcp32) i.a)
def semRcp (v : VStage) (w : VSlot) : OpSem := vStageSem w v stageRcp
def execRcp (v : VStage) (w : VSlot) (s : State) : Host.Outcome State Fault Refusal :=
  runSlot (.rcp v w) (semRcp v w) s

/-- RSQ (R407). -/
def stageRsq (i : StageIn) : StageOut := .of (mapLanes (seedLane i.fmt rsq32) i.a)
def semRsq (v : VStage) (w : VSlot) : OpSem := vStageSem w v stageRsq
def execRsq (v : VStage) (w : VSlot) (s : State) : Host.Outcome State Fault Refusal :=
  runSlot (.rsq v w) (semRsq v w) s

/-- EXP2 (R356). -/
def stageExp2 (i : StageIn) : StageOut := .of (mapLanes (seedLane i.fmt exp232) i.a)
def semExp2 (v : VStage) (w : VSlot) : OpSem := vStageSem w v stageExp2
def execExp2 (v : VStage) (w : VSlot) (s : State) : Host.Outcome State Fault Refusal :=
  runSlot (.exp2 v w) (semExp2 v w) s

/-- LOG2 (R356). -/
def stageLog2 (i : StageIn) : StageOut := .of (mapLanes (seedLane i.fmt log232) i.a)
def semLog2 (v : VStage) (w : VSlot) : OpSem := vStageSem w v stageLog2
def execLog2 (v : VStage) (w : VSlot) (s : State) : Host.Outcome State Fault Refusal :=
  runSlot (.log2 v w) (semLog2 v w) s

/-- CVT (R345): lanes 0 to 31; a widening conversion is exact. -/
def stageCvt (i : StageIn) : StageOut := .of (mapLanes (laneCvt i.fmt (laneFloat i.out) (if i.out = 0 then .rn else i.mode)) (i.a.take 32))
def semCvt (v : VStage) (w : VSlot) : OpSem := vStageSem w v stageCvt
def execCvt (v : VStage) (w : VSlot) (s : State) : Host.Outcome State Fault Refusal :=
  runSlot (.cvt v w) (semCvt v w) s

/-- CVTI (R345). -/
def stageCvti (i : StageIn) : StageOut := .of (mapLanes (laneCvti i.mode) i.a)
def semCvti (v : VStage) (w : VSlot) : OpSem := vStageSem w v stageCvti
def execCvti (v : VStage) (w : VSlot) (s : State) : Host.Outcome State Fault Refusal :=
  runSlot (.cvti v w) (semCvti v w) s

/-- CVTF (R345). -/
def stageCvtf (i : StageIn) : StageOut := .of (mapLanes (laneCvtf (laneFloat i.out) i.mode) i.a)
def semCvtf (v : VStage) (w : VSlot) : OpSem := vStageSem w v stageCvtf
def execCvtf (v : VStage) (w : VSlot) (s : State) : Host.Outcome State Fault Refusal :=
  runSlot (.cvtf v w) (semCvtf v w) s

/-- IADD (R371). -/
def stageIadd (i : StageIn) : StageOut := .of (zipLanes (laneInt 0x18) i.a i.b)
def semIadd (v : VStage) (w : VSlot) : OpSem := vStageSem w v stageIadd
def execIadd (v : VStage) (w : VSlot) (s : State) : Host.Outcome State Fault Refusal :=
  runSlot (.iadd v w) (semIadd v w) s

/-- ISUB (R371). -/
def stageIsub (i : StageIn) : StageOut := .of (zipLanes (laneInt 0x19) i.a i.b)
def semIsub (v : VStage) (w : VSlot) : OpSem := vStageSem w v stageIsub
def execIsub (v : VStage) (w : VSlot) (s : State) : Host.Outcome State Fault Refusal :=
  runSlot (.isub v w) (semIsub v w) s

/-- IMUL (R371). -/
def stageImul (i : StageIn) : StageOut := .of (zipLanes (laneInt 0x1a) i.a i.b)
def semImul (v : VStage) (w : VSlot) : OpSem := vStageSem w v stageImul
def execImul (v : VStage) (w : VSlot) (s : State) : Host.Outcome State Fault Refusal :=
  runSlot (.imul v w) (semImul v w) s

/-- IMULH (R371). -/
def stageImulh (i : StageIn) : StageOut := .of (zipLanes (laneInt 0x1b) i.a i.b)
def semImulh (v : VStage) (w : VSlot) : OpSem := vStageSem w v stageImulh
def execImulh (v : VStage) (w : VSlot) (s : State) : Host.Outcome State Fault Refusal :=
  runSlot (.imulh v w) (semImulh v w) s

/-- IMIN (R371). -/
def stageImin (i : StageIn) : StageOut := .of (zipLanes (laneInt 0x1c) i.a i.b)
def semImin (v : VStage) (w : VSlot) : OpSem := vStageSem w v stageImin
def execImin (v : VStage) (w : VSlot) (s : State) : Host.Outcome State Fault Refusal :=
  runSlot (.imin v w) (semImin v w) s

/-- IMAX (R371). -/
def stageImax (i : StageIn) : StageOut := .of (zipLanes (laneInt 0x1d) i.a i.b)
def semImax (v : VStage) (w : VSlot) : OpSem := vStageSem w v stageImax
def execImax (v : VStage) (w : VSlot) (s : State) : Host.Outcome State Fault Refusal :=
  runSlot (.imax v w) (semImax v w) s

/-- IMINN (R371). -/
def stageIminn (i : StageIn) : StageOut := .of (zipLanes (laneInt 0x1e) i.a i.b)
def semIminn (v : VStage) (w : VSlot) : OpSem := vStageSem w v stageIminn
def execIminn (v : VStage) (w : VSlot) (s : State) : Host.Outcome State Fault Refusal :=
  runSlot (.iminn v w) (semIminn v w) s

/-- IMAXN (R371). -/
def stageImaxn (i : StageIn) : StageOut := .of (zipLanes (laneInt 0x1f) i.a i.b)
def semImaxn (v : VStage) (w : VSlot) : OpSem := vStageSem w v stageImaxn
def execImaxn (v : VStage) (w : VSlot) (s : State) : Host.Outcome State Fault Refusal :=
  runSlot (.imaxn v w) (semImaxn v w) s

/-- IAND (R371). -/
def stageIand (i : StageIn) : StageOut := .of (zipLanes (laneInt 0x20) i.a i.b)
def semIand (v : VStage) (w : VSlot) : OpSem := vStageSem w v stageIand
def execIand (v : VStage) (w : VSlot) (s : State) : Host.Outcome State Fault Refusal :=
  runSlot (.iand v w) (semIand v w) s

/-- IOR (R371). -/
def stageIor (i : StageIn) : StageOut := .of (zipLanes (laneInt 0x21) i.a i.b)
def semIor (v : VStage) (w : VSlot) : OpSem := vStageSem w v stageIor
def execIor (v : VStage) (w : VSlot) (s : State) : Host.Outcome State Fault Refusal :=
  runSlot (.ior v w) (semIor v w) s

/-- IXOR (R371). -/
def stageIxor (i : StageIn) : StageOut := .of (zipLanes (laneInt 0x22) i.a i.b)
def semIxor (v : VStage) (w : VSlot) : OpSem := vStageSem w v stageIxor
def execIxor (v : VStage) (w : VSlot) (s : State) : Host.Outcome State Fault Refusal :=
  runSlot (.ixor v w) (semIxor v w) s

/-- ISHL (R371). -/
def stageIshl (i : StageIn) : StageOut := .of (zipLanes (laneInt 0x23) i.a i.b)
def semIshl (v : VStage) (w : VSlot) : OpSem := vStageSem w v stageIshl
def execIshl (v : VStage) (w : VSlot) (s : State) : Host.Outcome State Fault Refusal :=
  runSlot (.ishl v w) (semIshl v w) s

/-- ISHR (R371). -/
def stageIshr (i : StageIn) : StageOut := .of (zipLanes (laneInt 0x24) i.a i.b)
def semIshr (v : VStage) (w : VSlot) : OpSem := vStageSem w v stageIshr
def execIshr (v : VStage) (w : VSlot) (s : State) : Host.Outcome State Fault Refusal :=
  runSlot (.ishr v w) (semIshr v w) s

/-- ISAR (R371). -/
def stageIsar (i : StageIn) : StageOut := .of (zipLanes (laneInt 0x25) i.a i.b)
def semIsar (v : VStage) (w : VSlot) : OpSem := vStageSem w v stageIsar
def execIsar (v : VStage) (w : VSlot) (s : State) : Host.Outcome State Fault Refusal :=
  runSlot (.isar v w) (semIsar v w) s

/-- ICMP (R372). -/
def stageIcmp (i : StageIn) : StageOut := compared i.ty (List.zipWith (fun x y => (intCond 32 i.cond x y, 0)) i.a i.b)
def semIcmp (v : VStage) (w : VSlot) : OpSem := vStageSem w v stageIcmp
def execIcmp (v : VStage) (w : VSlot) (s : State) : Host.Outcome State Fault Refusal :=
  runSlot (.icmp v w) (semIcmp v w) s

/-- ISEL (R371). -/
def stageIsel (i : StageIn) : StageOut := .moved (selected i.vsel i.a i.b)
def semIsel (v : VStage) (w : VSlot) : OpSem := vStageSem w v stageIsel
def execIsel (v : VStage) (w : VSlot) (s : State) : Host.Outcome State Fault Refusal :=
  runSlot (.isel v w) (semIsel v w) s

/-- RSUM (R414). -/
def stageRsum (i : StageIn) : StageOut := .of (reduced (sumCombine i) i.a)
def semRsum (v : VStage) (w : VSlot) : OpSem := vStageSem w v stageRsum
def execRsum (v : VStage) (w : VSlot) (s : State) : Host.Outcome State Fault Refusal :=
  runSlot (.rsum v w) (semRsum v w) s

/-- RMAX (R414). -/
def stageRmax (i : StageIn) : StageOut := .of (reduced (minMaxCombine i true) i.a)
def semRmax (v : VStage) (w : VSlot) : OpSem := vStageSem w v stageRmax
def execRmax (v : VStage) (w : VSlot) (s : State) : Host.Outcome State Fault Refusal :=
  runSlot (.rmax v w) (semRmax v w) s

/-- RMIN (R414). -/
def stageRmin (i : StageIn) : StageOut := .of (reduced (minMaxCombine i false) i.a)
def semRmin (v : VStage) (w : VSlot) : OpSem := vStageSem w v stageRmin
def execRmin (v : VStage) (w : VSlot) (s : State) : Host.Outcome State Fault Refusal :=
  runSlot (.rmin v w) (semRmin v w) s

/-- BCAST (R329). -/
def stageBcast (i : StageIn) : StageOut := .moved (lanesBcast i.a i.b)
def semBcast (v : VStage) (w : VSlot) : OpSem := vStageSem w v stageBcast
def execBcast (v : VStage) (w : VSlot) (s : State) : Host.Outcome State Fault Refusal :=
  runSlot (.bcast v w) (semBcast v w) s

/-- PERM (R400). -/
def stagePerm (i : StageIn) : StageOut := .moved (lanesPerm i.a i.b)
def semPerm (v : VStage) (w : VSlot) : OpSem := vStageSem w v stagePerm
def execPerm (v : VStage) (w : VSlot) (s : State) : Host.Outcome State Fault Refusal :=
  runSlot (.perm v w) (semPerm v w) s

/-- LROT (R381). -/
def stageLrot (i : StageIn) : StageOut := .moved (lanesRot i.a i.b)
def semLrot (v : VStage) (w : VSlot) : OpSem := vStageSem w v stageLrot
def execLrot (v : VStage) (w : VSlot) (s : State) : Host.Outcome State Fault Refusal :=
  runSlot (.lrot v w) (semLrot v w) s

/-- AMAX (R323). -/
def stageAmax (i : StageIn) : StageOut := .of (lanesAmax i.fmt i.a)
def semAmax (v : VStage) (w : VSlot) : OpSem := vStageSem w v stageAmax
def execAmax (v : VStage) (w : VSlot) (s : State) : Host.Outcome State Fault Refusal :=
  runSlot (.amax v w) (semAmax v w) s

end Sys2Proof.Machine
end

