-- ==== Sys2Proof/Machine/Slots.lean ====
section
/-! DEFINITION. What the operations of a bundle's slots mean when a bundle issues: each operation's meaning, and its place in
the rules of segments (R239, R241) and of control flow (R290). -/

namespace Sys2Proof.Machine

/-- The meaning of a slot operation; none for a device step. -/
def Instr.sem (i : Instr) : Option OpSem :=
  match i with
  | .add f => some (semAdd f)
  | .sub_ f => some (semSub f)
  | .mul f => some (semMul f)
  | .mulh f => some (semMulh f)
  | .mulhn f => some (semMulhn f)
  | .div f => some (semDiv f)
  | .divn f => some (semDivn f)
  | .rem_ f => some (semRem f)
  | .remn f => some (semRemn f)
  | .and_ f => some (semAnd f)
  | .or_ f => some (semOr f)
  | .xor_ f => some (semXor f)
  | .andn f => some (semAndn f)
  | .shl f => some (semShl f)
  | .shr f => some (semShr f)
  | .sar f => some (semSar f)
  | .ror f => some (semRor f)
  | .min_ f => some (semMin f)
  | .max_ f => some (semMax f)
  | .minn f => some (semMinn f)
  | .maxn f => some (semMaxn f)
  | .clz f => some (semClz f)
  | .popc f => some (semPopc f)
  | .sel_ f => some (semSel f)
  | .bfx f => some (semBfx f)
  | .bfi f => some (semBfi f)
  | .cmp f => some (semCmp f)
  | .plog f => some (semPlog f)
  | .addi f => some (semAddi f)
  | .andi f => some (semAndi f)
  | .ori f => some (semOri f)
  | .xori f => some (semXori f)
  | .shli f => some (semShli f)
  | .shri f => some (semShri f)
  | .sari f => some (semSari f)
  | .muli f => some (semMuli f)
  | .cmpi f => some (semCmpi f)
  | .movi f => some (semMovi f)
  | .movh20 f => some (semMovh20 f)
  | .movh40 f => some (semMovh40 f)
  | .lds f => some (semLds f)
  | .sts f => some (semSts f)
  | .ld f => some (semLd f)
  | .st f => some (semSt f)
  | .xlat f => some (semXlat f)
  | .hinv f => some (semHinv f)
  | .hgen f => some (semHgen f)
  | .htst f => some (semHtst f)
  | .zset f => some (semZset f)
  | .zget f => some (semZget f)
  | .atom f => some (semAtom f)
  | .fence f => some (semFence f)
  | .waitGen f => some (semWaitGen f)
  | .waitBuf f => some (semWaitBuf f)
  | .waitHdl f => some (semWaitHdl f)
  | .swset f => some (semSwset f)
  | .swadd f => some (semSwadd f)
  | .acqb f => some (semAcqb f)
  | .acqbt f => some (semAcqbt f)
  | .relb f => some (semRelb f)
  | .bar f => some (semBar f)
  | .enq f => some (semEnq f)
  | .enqt f => some (semEnqt f)
  | .deq f => some (semDeq f)
  | .deqt f => some (semDeqt f)
  | .spawn f => some (semSpawn f)
  | .qcfg f => some (semQcfg f)
  | .qspl f => some (semQspl f)
  | .qusp f => some (semQusp f)
  | .qdist f => some (semQdist f)
  | .dset f => some (semDset f)
  | .dget f => some (semDget f)
  | .bmode f => some (semBmode f)
  | .brel f => some (semBrel f)
  | .bacq f => some (semBacq f)
  | .chk f => some (semChk f)
  | .chkq f => some (semChkq f)
  | .chkp f => some (semChkp f)
  | .br f => some (semBr f)
  | .brr f => some (semBrr f)
  | .call f => some (semCall f)
  | .ret f => some (semRet f)
  | .loop_ f => some (semLoop f)
  | .loopi f => some (semLoopi f)
  | .brk f => some (semBrk f)
  | .lidx f => some (semLidx f)
  | .trap f => some (semTrap f)
  | .mfsr f => some (semMfsr f)
  | .mtsr f => some (semMtsr f)
  | .leaseReq f => some (semLeaseReq f)
  | .leaseEnd f => some (semLeaseEnd f)
  | .cop f => some (semCop f)
  | .mma f => some (semMma f)
  | .mmas f => some (semMmas f)
  | .mmag f => some (semMmag f)
  | .accr f => some (semAccr f)
  | .accw f => some (semAccw f)
  | .accz f => some (semAccz f)
  | .mtrn f => some (semMtrn f)
  | .cpy f => some (semCpy f)
  | .cpyt f => some (semCpyt f)
  | .cpym f => some (semCpym f)
  | .ldq f => some (semLdq f)
  | .stq f => some (semStq f)
  | .gath f => some (semGath f)
  | .scat f => some (semScat f)
  | .pref f => some (semPref f)
  | .pin f => some (semPin f)
  | .unpn f => some (semUnpn f)
  | .acch f => some (semAcch f)
  | .flushr f => some (semFlushr f)
  | .xst f => some (semXst f)
  | .subs f => some (semSubs f)
  | .rets f => some (semRets f)
  | .coll f => some (semColl f)
  | .unpk f => some (semUnpk f)
  | .pack f => some (semPack f)
  | .pscl f => some (semPscl f)
  | .spmx f => some (semSpmx f)
  | .spex f => some (semSpex f)
  | .pass_ st w => some (semPass st w)
  | .fadd st w => some (semFadd st w)
  | .fsub st w => some (semFsub st w)
  | .fmul st w => some (semFmul st w)
  | .faddf st w => some (semFaddf st w)
  | .fsubf st w => some (semFsubf st w)
  | .fmin st w => some (semFmin st w)
  | .fmax st w => some (semFmax st w)
  | .fabs st w => some (semFabs st w)
  | .fneg st w => some (semFneg st w)
  | .fcps st w => some (semFcps st w)
  | .fcmp st w => some (semFcmp st w)
  | .fsel st w => some (semFsel st w)
  | .frnd st w => some (semFrnd st w)
  | .rcp st w => some (semRcp st w)
  | .rsq st w => some (semRsq st w)
  | .exp2 st w => some (semExp2 st w)
  | .log2 st w => some (semLog2 st w)
  | .cvt st w => some (semCvt st w)
  | .cvti st w => some (semCvti st w)
  | .cvtf st w => some (semCvtf st w)
  | .iadd st w => some (semIadd st w)
  | .isub st w => some (semIsub st w)
  | .imul st w => some (semImul st w)
  | .imulh st w => some (semImulh st w)
  | .imin st w => some (semImin st w)
  | .imax st w => some (semImax st w)
  | .iminn st w => some (semIminn st w)
  | .imaxn st w => some (semImaxn st w)
  | .iand st w => some (semIand st w)
  | .ior st w => some (semIor st w)
  | .ixor st w => some (semIxor st w)
  | .ishl st w => some (semIshl st w)
  | .ishr st w => some (semIshr st w)
  | .isar st w => some (semIsar st w)
  | .icmp st w => some (semIcmp st w)
  | .isel st w => some (semIsel st w)
  | .rsum st w => some (semRsum st w)
  | .rmax st w => some (semRmax st w)
  | .rmin st w => some (semRmin st w)
  | .bcast st w => some (semBcast st w)
  | .perm st w => some (semPerm st w)
  | .lrot st w => some (semLrot st w)
  | .amax st w => some (semAmax st w)
  | .nop => some semNop
  | .eret => some semEret
  | .halt => some semHalt
  | _ => none

/-- The synchronising operations (R239). -/
def Instr.syncs (i : Instr) : Bool :=
  match i with
  | .atom _ => true
  | .fence _ => true
  | .waitGen _ => true
  | .waitBuf _ => true
  | .waitHdl _ => true
  | .bar _ => true
  | .acqb _ => true
  | .acqbt _ => true
  | .deq _ => true
  | .deqt _ => true
  | .enqt _ => true
  | .qcfg _ => true
  | .qspl _ => true
  | .qusp _ => true
  | .bmode _ => true
  | .bacq _ => true
  | .brel _ => true
  | .hinv _ => true
  | .leaseReq _ => true
  | .leaseEnd _ => true
  | .mtsr _ => true
  | .cop _ => true
  | .trap _ => true
  | .eret => true
  | .halt => true
  | _ => false

/-- The operations held until their segment commits (R241). -/
def Instr.holds (i : Instr) : Bool :=
  match i with
  | .st _ => true
  | .sts _ => true
  | .swset _ => true
  | .swadd _ => true
  | .relb _ => true
  | .enq _ => true
  | .spawn _ => true
  | .cpy _ => true
  | .cpyt _ => true
  | .stq _ => true
  | .scat _ => true
  | .pin _ => true
  | .unpn _ => true
  | .acch _ => true
  | .flushr _ => true
  | .xst _ => true
  | .rets _ => true
  | .coll _ => true
  | _ => false

/-- The operations after which a LEND of their bundle is not acted upon, where they stand in S1 and execute (R290, R380). -/
def Instr.leaves (i : Instr) : Bool :=
  match i with
  | .br _ => true
  | .brr _ => true
  | .call _ => true
  | .ret _ => true
  | .brk _ => true
  | .eret => true
  | .halt => true
  | _ => false

/-- The operations whose outcome the members of a redundant pair compare when both have issued their bundle (R249). -/
def Instr.steers (i : Instr) : Bool :=
  match i with
  | .br _ => true
  | .brr _ => true
  | .call _ => true
  | .ret _ => true
  | .loop_ _ => true
  | .loopi _ => true
  | .brk _ => true
  | _ => false

/-- The limit of a WAIT whose timeout is limited (R114): its register's low 32 bits. -/
def State.waitLimit (s : State) (i : Instr) : Option Nat :=
  let lim (r : BitVec 5) : Option Nat :=
    let n := (s.srcG r).toNat % 2 ^ 32
    if n = 0 ∨ n = 2 ^ 32 - 1 then none else some n
  match i with
  | .waitGen f => lim f.d
  | .waitBuf f => lim f.d
  | .waitHdl f => lim f.d
  | _ => none

end Sys2Proof.Machine
end

