-- ==== Sys2Proof/Machine/Issue.lean ====
section
/-! DEFINITION. A core's cycle: what time makes due, the issue of bundles (R78, R89 to R93, R264, R288 to R292, R301, R302,
R380), and the commit and the rewind of segments (R238 to R250). -/

namespace Sys2Proof.Machine

/-! ## The operations of a bundle -/

/-- An operation of a bundle: its slot as SR.CAUSE names it (R270), and its meaning. -/
structure SlotOp where
  slot : Nat
  instr : Instr
  sem : OpSem

/-- An operation in its slot. -/
def slotOps (slot : Nat) (l : List Instr) : List SlotOp :=
  l.filterMap fun i => (Instr.sem i).map fun o => { slot := slot, instr := i, sem := o }

/-- The operations of a bundle in slot order, a V slot's three stages in turn (R264, R295). -/
def bundleOps (x : Bundle) : List SlotOp :=
  slotOps 1 x.s0.toList ++ slotOps 2 x.s1.toList ++ slotOps 3 ((x.v.map VSlot.stages).getD []) ++
    slotOps 4 x.m.toList ++ slotOps 5 x.e.toList ++ slotOps 6 x.u.toList

/-- The state with a slot named as the one that acts. -/
def State.atSlot (s : State) (n : Nat) : State := { s with iss := { s.iss with slot := n } }

/-- The bundle of a berth about to issue: the registers, staging registers, descriptors, latches and scratchpad that its operations
read (R290). -/
def State.openIssue (s : State) (c b : Nat) (h : Header) : State :=
  let x := s.berth c b
  { s with
    iss := { core := c, berth := b, slot := 0, hdr := h, start := x.regs, sup := x.sup, z := (s.core c).z, d := (s.core c).d,
             spad := heldView x.held (s.cluster (clusterOf c)).spad, ya := x.ya, yb := x.yb, yc := x.yc, vsel := x.vsel,
             inA := 0, inB := 0, chainFlags := 0, taken := false } }

/-- The bundle predicate (R290). -/
def State.bundleOn (s : State) : Bool := s.srcK s.iss.hdr.bpred != s.iss.hdr.bneg

/-- The operations that execute: the bundle predicate and their own are true (R91, R290). -/
def State.active (s : State) (x : Bundle) : List SlotOp :=
  if s.bundleOn then (bundleOps x).filter fun k => k.sem.pred s else []

/-- The next bundle of a berth, or the trap that its fetch and decoding raise (R47, R264, R289). DEDUCED (log 59). -/
def State.fetchBundle (s : State) (c b : Nat) : Except Trap Bundle :=
  let x := s.berth c b
  match Map.get? (s.core c).imem x.regs.pc.toNat with
  | none => .error { code := tIllegalBundle, slot := 0, timm := 0, info := sub 2 0 }
  | some m =>
    if m.owner ≠ some x.slot then .error { code := tIllegalBundle, slot := 0, timm := 0, info := sub 2 0 }
    else
      match decodeBundle m.word with
      | .ok y => .ok y
      | .error .header => .error { code := tIllegalBundle, slot := 0, timm := 0, info := 0 }
      | .error (.emptySlot n) => .error { code := tIllegalBundle, slot := 0, timm := 0, info := sub 1 n }
      | .error (.opcode n op st) => .error { code := tIllegalOpcode, slot := n, timm := 0, info := op + st * 2 ^ 8 }

/-! ## Segments: entries (R239, R241, R243) -/

/-- The items that a bundle adds to those its segment holds (R241). -/
def State.heldBy (s : State) (ops : List SlotOp) : Nat :=
  let spliced (a : Append) : Nat := if (s.srcQ a.queue).splice = .spliced then a.entries else 0
  ops.foldl (fun n k => (k.sem.appends s).foldl (fun n a => n + spliced a) (if Instr.holds k.instr then n + 1 else n)) 0

/-- A bundle is a segment entry (R239). -/
def State.isEntry (s : State) (x : Bundle) (ops : List SlotOp) : Bool :=
  let b := s.me
  b.entryNext || x.hdr.seg || x.hdr.pp || x.hdr.yld || ((bundleOps x).any fun k => Instr.syncs k.instr) || b.afterSync ||
    decide (64 < b.held.length + s.heldBy ops)

/-- The open segment's checkpoint taken (R243): the berth's segment starts with the next bundle to issue. -/
def State.openSegment (s : State) : State :=
  s.onMe fun b =>
    let r : Regs := { b.regs with entry := b.regs.pc }
    { b with
      regs := r, ckpt := some r, accWritten0 := 0, accWritten1 := 0, segIssued := b.issued, entryNext := false,
      diverged := false, segE := [], matched := false, freshEntry := b.afterYield || b.issued == 0 }

/-! ## The checks of a bundle (R90, R91, R93, R264, R301, R302, R380) -/

/-- A register that a bundle's predicates, or its executing operations, read awaits its result (R301). -/
def State.interlocked (s : State) (x : Bundle) (ops : List SlotOp) : Bool :=
  let preds := (bundleOps x).map fun k => k.sem.reads.filter fun r => r.1 == 2
  let l := rK s.iss.hdr.bpred :: (preds ++ ops.map fun k => k.sem.reads).flatten
  s.me.outstanding.any fun p => l.contains (p.file, p.num) && (p.num != 0 || p.file == 1)

/-- PRIV of the first operation that raises it (R264). -/
def State.privCheck (s : State) (ops : List SlotOp) : Verdict :=
  match ops.findSome? fun k => k.sem.priv (s.atSlot k.slot) with
  | some t => .trap t
  | none => .pass

/-- STALL_SHORT of the first register source whose producer is too near (R302). -/
def State.stallCheck (s : State) (ops : List SlotOp) : Verdict :=
  let st := s.iss.hdr.stall
  let late (r : RegName) : Option Produced := s.me.produced.find? fun p =>
    p.file == r.1 && p.num == r.2 && decide (p.distance + 1 + st < p.latency)
  let first := ops.findSome? fun k => (k.sem.reads.findSome? late).map fun p => (k.slot, p)
  match s.iss.start.chksb.getLsbD 0, first with
  | true, some (n, p) =>
    .trap { code := tStallShort, slot := n, timm := 0,
            info := st * 2 ^ 12 + p.latency * 2 ^ 8 + p.file * 2 ^ 5 + p.num }
  | _, _ => .pass

/-- A release of S0 counts among the held items that a release of S1 finds (R409, log 32). -/
def State.afterRelease (s : State) (k : SlotOp) : State :=
  match k.instr with
  | .relb _ => k.sem.perform (s.atSlot k.slot)
  | _ => s

/-- The wait of an operation whose outcome follows what an earlier synchronising operation of its bundle does (R239, R290). -/
def Instr.awaits (i : Instr) : Bool :=
  match i with
  | .waitGen _ => true
  | .waitBuf _ => true
  | .waitHdl _ => true
  | .deq _ => true
  | .acqb _ => true
  | .bacq _ => true
  | _ => false

/-- The verdict makes the operation wait. -/
def Verdict.waits (v : Verdict) : Bool :=
  match v with
  | .wait => true
  | .line .. => true
  | _ => false

/-- The operation is a WAIT (R114). -/
def Instr.isWait (i : Instr) : Bool :=
  match i with
  | .waitGen _ => true
  | .waitBuf _ => true
  | .waitHdl _ => true
  | _ => false

/-- The checks of an operation as its bundle issues. Behind an earlier synchronising operation of the bundle, which is performed first,
it is decided at the commit whether a WAIT ends, and how, and whether another operation must wait (R239, R290). DEDUCED (log 14). -/
def State.checksOf (s : State) (behind : Bool) (k : SlotOp) : List Verdict :=
  let l := k.sem.check (s.atSlot k.slot)
  if behind && Instr.awaits k.instr then
    match l.getLast? with
    | some v => l.dropLast ++ [if Instr.isWait k.instr && !s.odd || v.waits then .pass else v]
    | none => l
  else l

/-- The checks of each slot, in slot order (R264). -/
def State.slotChecks (s : State) (behind : Bool) : List SlotOp → List Verdict
  | [] => []
  | k :: l => s.checksOf behind k ++ (s.afterRelease k).slotChecks (behind || Instr.syncs k.instr) l

/-- A LEND that is acted upon: the bundle predicate is true and no operation takes control away (R290, R380). -/
def State.loops (s : State) (ops : List SlotOp) : Bool :=
  s.iss.hdr.lend && s.bundleOn && !(ops.any fun k => Instr.leaves k.instr)

/-- The check of LEND (R380). -/
def State.lendCheck (s : State) (ops : List SlotOp) : Verdict :=
  if s.loops ops then
    need ((s.iss.start.loops.head?.map fun e => e.stop == s.iss.start.pc).getD false) s.loopDepth
  else .pass

/-- The queues that the bundle pops: none where its predicate is false (R91, R93). -/
def State.popped (s : State) : List Nat := if s.bundleOn then (List.range 4).filter fun n => s.pops n == 1 else []

/-- The check of a pop (R93, R97, R99). -/
def State.popCheck (s : State) (n : Nat) : Verdict :=
  let q := s.srcQ n
  if !q.readable then .trap (s.trap tQunder (2 ^ 9 + 2 ^ 8 + n))
  else if q.occ ≠ 0 then .pass
  else if q.splice = .fed || s.pushesRemain n then .wait
  else .trap (s.trap tQunder (2 ^ 8 + n))

/-- The appends of the operations. -/
def State.allAppends (s : State) (ops : List SlotOp) : List Append :=
  (ops.map fun k => k.sem.appends (s.atSlot k.slot)).flatten

/-- The source entries of the operations. -/
def State.allSources (s : State) (ops : List SlotOp) : List Entry :=
  (ops.map fun k => k.sem.sources (s.atSlot k.slot)).flatten

/-- A popped head is present (R91). -/
def State.headPresent (s : State) (n : Nat) : Bool :=
  (s.myCluster.block (s.entryAddr ⟨n, 0⟩)).present && s.twinAppended ⟨n, 0⟩

/-- The checks of a bundle in the order of R264, then the conditions of R91. -/
def State.bundleChecks (s : State) (x : Bundle) (ops : List SlotOp) : List Verdict :=
  [await (!s.interlocked x ops), s.privCheck ops, s.stallCheck ops] ++ s.slotChecks false ops ++ [s.lendCheck ops] ++
    s.popped.map s.popCheck ++
    ops.map (fun k => (s.atSlot k.slot).issueReady (k.sem.sources (s.atSlot k.slot)) []) ++
    [s.issueReady [] (s.allAppends ops), await (s.popped.all s.headPresent)]

/-- A check that does not hold the bundle: a pass, or one that has passed before the bundle waited at a later one (R264); the room of
R91, and what a bundle waits for again, hold it whenever they fail. -/
def Verdict.stays (passed : Bool) (v : Verdict) : Bool :=
  match v with
  | .pass => true
  | .trap _ => passed
  | .park .. => passed
  | .poison _ => passed
  | _ => false

/-- The first check of a bundle that holds it, with its place: those at the first places have passed and stay passed (R264). -/
def firstHolding (passed : Nat) (l : List Verdict) : Option (Verdict × Nat) :=
  l.zipIdx.find? fun x => !(x.1.stays (decide (x.2 < passed)))

/-- What the checks of a bundle decide. -/
def State.judge (s : State) (x : Bundle) (ops : List SlotOp) : Verdict :=
  ((firstHolding s.me.passed (s.bundleChecks x ops)).map Prod.fst).getD .pass

/-! ## What a stalled berth waits for -/

/-- An entry of the berth's own queue that is reserved and absent, among the sources and heads that the bundle needs. -/
def State.absentEntry (s : State) (ops : List SlotOp) : Option Nat :=
  let l := s.allSources ops ++ s.popped.map fun n => ⟨n, 0⟩
  (l.find? fun e => (s.srcQ e.queue).readable && decide (e.offset < (s.srcQ e.queue).occ) &&
    !(s.myCluster.block (s.entryAddr e)).present).map s.entryAddr

/-- The FED queues of absent entries, and the full SPLICED queues, that the bundle waits for (R247). -/
def State.stuckQueues (s : State) (ops : List SlotOp) : List Nat :=
  let l := s.allSources ops ++ s.popped.map fun n => ⟨n, 0⟩
  let dry (n : Nat) : Bool := (s.srcQ n).splice == .fed && l.any fun e => e.queue == n &&
    (decide ((s.srcQ n).occ ≤ e.offset) || !(s.myCluster.block (s.entryAddr e)).present)
  let full (n : Nat) : Bool := (s.srcQ n).splice == .spliced &&
    !(s.room n (((s.allAppends ops).filter fun a => a.queue == n).foldl (fun t a => t + a.entries) 0) (s.pops n))
  (List.range 4).filter fun n => dry n || full n

/-- The operation of a bundle whose checks as it issues wait, and the slot and the limit of it, if it is a WAIT (R114). -/
def State.firstWaiting (s : State) (behind : Bool) : List SlotOp → Option SlotOp
  | [] => none
  | k :: l => if (s.checksOf behind k).contains .wait then some k else s.firstWaiting (behind || Instr.syncs k.instr) l
def State.waitingOn (s : State) (x : Bundle) (ops : List SlotOp) : Option (Nat × Nat) :=
  if s.interlocked x ops then none
  else (s.firstWaiting false ops).bind fun k => (s.waitLimit k.instr).map fun n => (k.slot, n)

/-- An operation waits for its program order after a result of its berth that R94 and R241 hold back: the entry of that
result (R195, log 25). -/
def State.heldResult (s : State) (ops : List SlotOp) : Option Nat :=
  let kept (e : Nat × Writeback) : Bool := e.2.core == s.iss.core && e.2.berth == s.iss.berth && s.heldBack e.2
  let freed : State := { s with writebacks := s.writebacks.filter fun e => !(kept e) }
  let v (t : State) (k : SlotOp) : Verdict :=
    let t := t.atSlot k.slot
    (allChecks (k.sem.check t)).andThen (t.issueReady (k.sem.sources t) [])
  let waits (k : SlotOp) : Bool := v s k == .wait && v freed k != .wait
  if ops.any waits then (s.writebacks.find? kept).map fun e => e.2.addr else none

/-- The berth is STALLED at its bundle, and what it waits for. -/
def State.stallAt (s : State) (x : Bundle) (ops : List SlotOp) : State :=
  let a := s.absentEntry ops <|> s.heldResult ops
  let q := s.stuckQueues ops
  let w := s.waitingOn x ops
  s.stall.onMe fun b => { b with awaits := a, waitsOn := q, waiting := w }

/-! ## A segment begun again (R241, R243, R244) -/

/-- A queue of a rewound berth: the tail of a queue that others feed is not restored (R243, R244). -/
def Queue.restore (live saved : Queue) : Queue :=
  match live.splice with
  | .fed => { live with head := saved.head }
  | .spliced => { saved with mirrored := live.mirrored }
  | _ => if live.subscribed then { live with head := saved.head } else saved

/-- The checkpoint as a rewind restores it: sticky flags, SR.CAUSE, SR.EPC and SR.EINFO are not in it, and REWINDS counts on
(R243, R244). DEDUCED (log 61). -/
def Regs.restore (live saved : Regs) : Regs :=
  { saved with
    q := Vector.ofFn fun i => (live.queue i.val).restore (saved.queue i.val)
    flags := live.flags, cause := live.cause, epc := live.epc, einfo := live.einfo, rewinds := live.rewinds,
    retry := live.retry, entry := live.entry }

/-- The presence bits of slots between the restored tail and the tail at the error cleared (R244). -/
def State.clearTail (s : State) (c b : Nat) (live saved : Queue) : State :=
  if s.shadow c b || live.subscribed || !(live.splice == .localQ || live.splice == .openQ) then s
  else
    (List.range (live.tail - saved.tail).toNat).foldl (fun (s : State) i =>
      let clear (x : Block) : Block := { x with present := false }
      s.onBlock (clusterOf c) (live.slotAddr (saved.tail + .ofNat 16 i)) clear) s

/-- The results of a failed attempt discarded; the sticky flags that they raise stay, and a hold of the matrix engine that awaited them
ends (R32, R145, R244). -/
def State.discardResults (s : State) (c b : Nat) : State :=
  let mine (w : Writeback) : Bool := w.core == c && w.berth == b
  let f := s.writebacks.foldl (fun (f : BitVec 7) e => if mine e.2 then f ||| e.2.flags else f) 0
  ({ s with writebacks := s.writebacks.filter fun e => !(mine e.2) }.mergeFlags c b f).endHold c

/-- The walks of a rewound berth: those for handles that the checkpoint holds as not ready. DEDUCED (log 62). -/
def State.rewalk (s : State) (c b : Nat) (r : Regs) : State :=
  let rest := s.walks.filter fun w => !(w.core == c && w.berth == b)
  let pending := (List.range 16).filter fun n => let h := vget r.h n Handle.zero; h.loaded && !h.ready
  let new (n : Nat) : PendingWalk :=
    { core := c, berth := b, handle := n, va := (vget r.h n Handle.zero).vpn.toNat * 2 ^ 16 }
  pending.foldl (fun (s : State) n => s.later (.xlatWalkComplete c b n)) { s with walks := rest ++ pending.map new }

/-- What a rewind has to wait for: an LDQ, GATH or CPYM of the berth under way (R244), or an operation of the matrix engine. -/
def State.rewindBusy (s : State) (c b : Nat) : Bool :=
  (s.commands.any fun e => s.owns c b e.2 && e.2.push.isNone && [3, 4, 6].contains e.2.op) ||
    ((s.core c).half0 ++ (s.core c).half1).any fun m => m.berth == b

/-- The slots that the segment has popped hold their entries again (R241, R244): what was to overwrite them was held back. -/
def State.restoreHead (s : State) (c b : Nat) (live saved : Queue) : State :=
  if s.shadow c b then s
  else
    (List.range (live.head - saved.head).toNat).foldl (fun (s : State) i =>
      let set (x : Block) : Block := { x with present := true }
      s.onBlock (clusterOf c) (live.slotAddr (saved.head + .ofNat 16 i)) set) s

/-- The operations of a core's half-arrays changed, by a function that keeps, changes or drops each. -/
def State.mapHalves (s : State) (c : Nat) (f : MatrixOp → Option MatrixOp) : State :=
  let k := s.core c
  (s.setCore c { k with half0 := k.half0.filterMap f, half1 := k.half1.filterMap f }).endHold c

/-- The LDQ, GATH and CPYM commands of a failed attempt whose data are held back, as their slots are (R94, R241), discarded with
their follow-ons; that of the other member of a pair, which does not rewind, awaits the command of the next attempt (R249). A member's
follow-on that waits for a command of the other member which is held back, or still to issue, is discarded. DEDUCED (log 25). -/
def State.dropHeldBack (s : State) (c b : Nat) : State :=
  let l := s.commands.filter fun e => s.owns c b e.2 && e.2.push.isNone && [3, 4, 6].contains e.2.op && s.slotHeld e.2
  let gone (o : MatrixOp) : Bool := (o.after.map fun n => l.any fun e => e.1 == n).getD false
  let lost (a : Option Nat) : Bool := (a.map fun a => l.any fun e => (e.2.append.map fun x => x.2.2 == a).getD false).getD false
  let waits (o : MatrixOp) : Bool := o.berth == b && (o.addrA.isSome || o.addrB.isSome) &&
    (s.waitsForTwin c o || (o.after.map fun n => ((Map.get? s.commands n).map s.slotHeld).getD false).getD false ||
      lost o.addrA || lost o.addrB)
  let t := s.mapHalves c fun o => if gone o || waits o then none else some o
  let t := match (s.berth c b).partner with
    | some (d, _) => t.mapHalves d fun o => some (if gone o then { o with after := none } else o)
    | none => t
  l.foldl (fun (t : State) e => { t with commands := Map.erase t.commands e.1 }) t

/-- The checkpoint restored, and the berth READY to issue from it. -/
def State.restoreSegment (s : State) (c b : Nat) : State :=
  let x := s.berth c b
  let saved := x.ckpt.getD x.regs
  let s := (List.range 4).foldl (fun (s : State) n =>
    (s.clearTail c b (x.regs.queue n) (saved.queue n)).restoreHead c b (x.regs.queue n) (saved.queue n)) s
  let subs := x.subs.map fun (e : Nat × Sub) => (e.1, { e.2 with rewound := e.2.rewound || e.2.fresh })
  let s := s.onBerth c b fun y =>
    { y with
      regs := y.regs.restore saved, subs := subs, outstanding := [], produced := [], ckpt := none, closing := false
      matched := false, diverged := false, deferred := none, awaits := none, waitsOn := [], park := y.park.filter Park.fails, segE := []
      passed := 0, steered := false
      accWritten0 := 0, accWritten1 := 0
      issued := if x.ckpt.isSome then y.segIssued else y.issued, entryNext := true, status := .ready, error := none
      pboundDue := false, evictCause := 0, afterYield := false, afterPre := false }
  let s := if x.freshEntry then s.onBerth c b fun y => { y with ya := 0, yb := 0, yc := 0, vsel := 0 } else s
  s.rewalk c b saved

/-- The checkpoint of a member restored that the other member of its pair is behind of, where a trap is to close the segment of both: it
executes the segment again up to the same bundle (R249, R250). DESIGN CHOICE (log 90). -/
def State.pullBack (s : State) (c b : Nat) : State :=
  let t := (s.discardItems c b).dropHeldBack c b
  if t.rewindBusy c b || (s.berth c b).error.isSome then s else (t.discardResults c b).restoreSegment c b

/-- The other member of a pair stands ahead of a berth in a segment that is open, and can be pulled back. -/
def State.twinAhead (s : State) (c b : Nat) : Option (Nat × Nat) :=
  (s.berth c b).partner.filter fun p =>
    let y := s.berth p.1 p.2
    y.ckpt.isSome && decide ((s.berth c b).issued < y.issued) && y.sup == (s.berth c b).sup &&
      (y.status == .ready || y.status == .stalled || y.status == .parked)

/-- The issuing berth takes a trap, which closes its segment: of a pair once the other member has come back to this bundle (R242, R246,
R250). -/
def State.trapPair (s : State) (t : Trap) : State :=
  match s.twinAhead s.iss.core s.iss.berth with
  | some (d, e) => s.stall.pullBack d e
  | none => s.takeTrap t

/-! ## Where a berth stands at a bundle boundary (R35, R78, R247, R249, R264) -/

/-- The partner of a berth by splice, of the queue of a berth (R247). -/
def Queue.partner (q : Queue) : Option (Nat × Nat) :=
  if q.splice = .fed ∨ q.splice = .spliced then some (q.peerCore, q.peerBerth) else none

/-- A rewinding partner still holds a berth: it has not committed the rewound segment, and does not wait for this berth
(R247). The other member of a pair holds it until the rewound attempt has come as far, for the segment's commit needs both (log 37). -/
def State.stillRewinds (s : State) (c b : Nat) (p : Nat × Nat) : Bool :=
  let y := s.berth p.1 p.2
  let even : Bool := (s.berth c b).partner == some p && decide ((s.berth c b).issued ≤ y.issued)
  y.rewinding && !even && !(y.waitsOn.any fun q => (y.regs.queue q).partner == some (c, b))

/-- The other member of a redundant pair is parked on a page fault (R250). -/
def State.twinFaults (s : State) (c b : Nat) : Bool :=
  match (s.berth c b).partner with
  | none => false
  | some (d, e) =>
    let y := s.berth d e
    y.status == .parked && (match y.park with
      | some (.pageFault ..) => true
      | _ => false)

/-- A member of a pair goes on without the other, which executes a rewound segment or is parked on a page fault (R247, R250); after
a control operation it stalls until the other has issued its bundle too (R249). -/
def State.apart (s : State) (c b : Nat) : Bool :=
  match (s.berth c b).partner with
  | none => false
  | some (d, e) =>
    let behind : Bool := decide ((s.berth d e).issued < (s.berth c b).issued)
    (s.twinFaults c b || ((s.berth d e).rewinding && behind)) && !((s.berth c b).steered && behind)

/-- The other member of a pair stands at the same bundle and closes its segment there: the pair's segment commits (R242). -/
def State.twinCloses (s : State) (c b : Nat) : Bool :=
  match (s.berth c b).partner with
  | none => false
  | some (d, e) => (s.berth d e).closing && (s.berth d e).issued == (s.berth c b).issued

/-- The members of a redundant pair issue their bundles in turn, the even member first (R249). DEDUCED (log 37). -/
def State.inStep (s : State) (c b : Nat) : Bool :=
  let x := s.berth c b
  match x.partner with
  | none => true
  | some (d, e) =>
    let y := s.berth d e
    y.status == .draining || y.status == .free ||
      (if c % 2 = 0 then decide (x.issued ≤ y.issued) && (y.deferred.isNone || y.ckpt.isSome) else decide (x.issued < y.issued))

/-- The trap of PBOUND (R56, R272). -/
def State.pboundTrap (s : State) : Trap := s.trap tPbound s.me.regs.count.toNat

/-- The checks before the one at which a bundle waits stay passed (R264). -/
def State.keepPassed (s : State) (n : Nat) : State := s.onMe fun b => { b with passed := max b.passed n }

/-- The decision of the bundle that the berth has open: READY, STALLED with what it waits for, or the trap, request or error
that its checks raise. -/
def State.decideBundle (s : State) (x : Bundle) (ops : List SlotOp) : State :=
  let n := ((firstHolding s.me.passed (s.bundleChecks x ops)).map Prod.snd).getD 0
  match s.judge x ops with
  | .pass => s.onMe fun b => { b with status := .ready, awaits := none, waitsOn := [], waiting := none }
  | .wait => (s.stallAt x ops).keepPassed n
  | .poison t => (if s.me.ckpt.isNone then s.openSegment else s).refuseBundle (.poison t)
  | .ask k m p => (s.refuseBundle (.ask k m p)).keepPassed n
  | .line r side => (s.refuseBundle (.line r side)).keepPassed n
  | .trap t => s.trapPair t
  | v => s.refuseBundle v

/-- The bundle waits for its partners' rewind: the berth is PARKED at its bollard, its segment entry or HALT (R247); an answer FAIL to
its pair stays due (R250). -/
def State.parkAt (s : State) : State :=
  s.onMe fun b => { b with status := .parked, park := b.park.filter Park.fails <|> some .partnerRewind, waiting := none }

/-- The berth's open segment is to commit before its bundle. -/
def State.closeSegment (s : State) : State :=
  (s.stall.onMe fun y => { y with closing := true }).later (.segmentCommit s.iss.core s.iss.berth)

/-- A berth with a decoded bundle open considered: a segment entry first commits the open segment and awaits every
outstanding result (R242, R301), and a berth held by a rewinding partner parks at RDV, at an entry and at HALT.
DEDUCED (log 38). -/
def State.considerBundle (s : State) (x : Bundle) : State :=
  let ops := s.active x
  let entry := s.isEntry x ops
  let c := s.iss.core
  let b := s.iss.berth
  let l := if s.me.rewinding then [] else s.me.rewinders.filter (s.stillRewinds c b)
  let s := s.onMe fun y => { y with rewinders := l }
  if s.me.sinceIssue < x.hdr.stall + 1 then s.stall
  else if (x.hdr.rdv || entry) && (!l.isEmpty || s.twinFaults c b) then s.parkAt
  else
    let may := s.inStep c b || s.apart c b
    let s := s.onMe fun y => { y with park := y.park.filter Park.fails }
    if entry && s.me.ckpt.isSome then s.closeSegment
    else if !may then s.stall
    else if (entry || s.me.ckpt.isNone) && !s.me.outstanding.isEmpty then s.stall
    else s.decideBundle x ops

/-- A berth at a bundle boundary considered (R264). What a deferred operation waits for stays, for its timeout (R114). -/
def State.considerBerth (s : State) (c b : Nat) : State :=
  let x := s.berth c b
  let s := s.onBerth c b fun y => { y with waiting := if y.deferred.isSome && y.ckpt.isNone then y.waiting else none }
  let s := s.openIssue c b (Header.read 0)
  if x.error.isSome || x.closing || !x.lastDone then s.stall
  else if x.ckpt.isSome && s.twinCloses c b then s.closeSegment
  else
    let trap (t : Trap) : State :=
      if (s.twinAhead c b).isSome || s.inStep c b || s.apart c b then s.trapPair t else s.stall
    let fetch : State := match s.fetchBundle c b with
      | .error t => trap t
      | .ok y => (s.openIssue c b y.hdr).considerBundle y
    match x.park, x.pboundDue && !x.sup with
    | some (.pageFault ..), _ => s.stall
    | _, true => trap s.pboundTrap
    | some (.failed t), _ => trap t
    | some (.partnerFailed t), _ =>
      let y := s.twin
      if y.issued = x.issued ∨ (y.sup ∧ !x.sup) then s.takeTrap t
      else if y.issued < x.issued then s.stall
      else fetch
    | _, _ => fetch

/-- A berth that may issue considered: READY, STALLED, or PARKED for a partner's rewind. -/
def State.consider (s : State) (c b : Nat) : State :=
  let x := s.berth c b
  if x.status = .ready ∨ x.status = .stalled ∨
      (x.status = .parked ∧ (x.park.map Park.atEntry).getD false) then
    s.considerBerth c b
  else s

/-- The READY berth that the issue selector takes (R78). -/
def State.pick (s : State) (c : Nat) (l : List Nat) : Option Nat :=
  let order := ((List.range 8).map fun i => ((s.core c).lastIssued + 1 + i) % 8).filter fun b =>
    l.contains b && (s.berth c b).status == .ready
  let top := (order.map fun b => (s.berth c b).prio).foldl max 0
  order.find? fun b => (s.berth c b).prio == top

/-! ## Issue (R91 to R93, R239, R249, R290, R295, R301, R302, R380) -/

/-- Results outstanding for registers that are written again are discarded (R290). -/
def State.dropPending (s : State) (l : List RegName) : State :=
  s.onMe fun b => { b with outstanding := b.outstanding.filter fun p => !(l.contains (p.file, p.num)) }

/-- An operation of the bundle performed in its slot. -/
def State.performSlot (s : State) (k : SlotOp) : State :=
  k.sem.perform ((s.atSlot k.slot).dropPending (k.sem.writes.map Prod.fst))

/-- The deferred operations of a bundle, each with the registers that it and a later operation write (R290). -/
def deferredOps : List SlotOp → List (Nat × Instr × List RegName)
  | [] => []
  | k :: l =>
    if Instr.syncs k.instr then
      let later := ((l.filter fun (j : SlotOp) => !(Instr.syncs j.instr)).map fun j => j.sem.writes.map Prod.fst).flatten
      (k.slot, k.instr, (k.sem.writes.map Prod.fst).filter later.contains) :: deferredOps l
    else deferredOps l

/-- The heads of the popped queues advanced (R93). -/
def State.popQueues (s : State) (l : List Nat) : State :=
  l.foldl (fun (s : State) n => s.onRegs fun x => x.putQ n { x.queue n with head := (x.queue n).head + 1 }) s

/-- LEND acted upon (R380). -/
def State.lend (s : State) : State :=
  s.onRegs fun x => match x.loops with
    | [] => x
    | e :: l =>
      if e.remaining - 1 = 0 then { x with loops := l }
      else { x with pc := e.start, loops := { e with index := e.index + 1, remaining := e.remaining - 1 } :: l }

/-- The checking scoreboard after a bundle (R301, R302). DESIGN CHOICE (log 74). -/
def produce (old : List Produced) (st : Nat) (w : List (RegName × Option Nat)) : List Produced :=
  let old := (old.map fun (p : Produced) => { p with distance := p.distance + 1 + st }).filter fun p =>
    decide (p.distance < p.latency)
  w.foldl (fun (l : List Produced) e =>
    let l := l.filter fun p => !(p.file == e.1.1 && p.num == e.1.2)
    match e.2 with
    | some n => if e.1.2 = 0 ∧ e.1.1 ≠ 1 then l else l ++ [{ file := e.1.1, num := e.1.2, latency := n, distance := 0 }]
    | none => l) old

/-- A bundle with PP or YLD ends a run: the bypass registers and the select latch read as zero in the next bundle (R31),
and the hold of the matrix engine ends with its operations (R32), though the bundle itself takes the engine: DESIGN CHOICE (log 83). PP
clears SR.PBOUND.COUNT (R56). -/
def State.endRun (s : State) (h : Header) : State :=
  let s := if h.pp then s.onRegs fun x => { x with count := 0 } else s
  if h.pp || h.yld then
    let s := s.onMe fun b => { b with ya := 0, yb := 0, yc := 0, vsel := 0 }
    if s.myCore.hold = some s.iss.berth then (s.onMyCore fun k => { k with holdEnding := true }).endHold s.iss.core else s
  else s

/-- A mismatch of a redundant pair is an error of both members; where either has RETRY set it is a second failure of both (R249). -/
def State.raiseDiverge (s : State) (c b d e info : Nat) : State :=
  let again := (s.berth c b).regs.retry || (s.berth d e).regs.retry
  let t : Trap := { code := tPairDiverge, slot := 0, timm := 0, info := info }
  let err (y : Berth) : Berth :=
    ({ y with regs := { y.regs with retry := again } } : Berth).addError { trap := t, released := false }
  (s.onBerth c b err).onBerth d e err

/-- A control outcome that differs between the members of a redundant pair is an error of both, found when the later of them has
issued the bundle (R249). -/
def State.compareControl (s : State) : State :=
  match s.me.partner with
  | none => s
  | some (d, e) =>
    let y := s.berth d e
    if y.issued != s.me.issued || (y.regs.pc == s.me.regs.pc && decide (y.regs.loops = s.me.regs.loops)) then s
    else s.raiseDiverge s.iss.core s.iss.berth d e 1

/-- The bookkeeping of a bundle that has issued. -/
def State.closeIssue (s : State) (x : Bundle) (ops : List SlotOp) : State :=
  let syncs : Bool := (bundleOps x).any fun k => Instr.syncs k.instr
  let s := s.onMe fun b =>
    { b with
      produced := produce b.produced x.hdr.stall (ops.map fun k => k.sem.writes).flatten
      sinceIssue := 0, issued := b.issued + 1, afterSync := syncs, afterYield := x.hdr.pp || x.hdr.yld, afterPre := x.hdr.pp
      steered := ops.any fun k => Instr.steers k.instr
      awaits := none, waitsOn := [], waiting := none, passed := 0, status := .ready }
  (s.onMyCore fun k => { k with lastIssued := s.iss.berth }).endRun x.hdr

/-- The open bundle issued: its segment opens at an entry; its operations are performed in slot order, the synchronising ones
when their segment commits (R239); its pops, its LEND and its bookkeeping follow. DEDUCED (log 14). -/
def State.issueBundle (s : State) (x : Bundle) (ops : List SlotOp) : State :=
  let entry := s.isEntry x ops || s.me.ckpt.isNone
  let pops := s.popped
  let ends := s.loops ops
  let s := if entry then s.openSegment else s
  let s := s.onRegs fun r => { r with pc := r.pc + 1 }
  let s := (ops.filter fun k => !(Instr.syncs k.instr)).foldl State.performSlot s
  let s := s.popQueues pops
  let s := if ends then s.lend else s
  let s := (s.closeIssue x ops).compareControl
  match deferredOps ops with
  | [] => s.onMe fun b =>
    { b with waited := [], timedOut := [] }
  | l => s.onMe fun b => { b with closing := true, deferred := some { iss := s.iss, ops := l } }

/-! ## Commit (R241, R242, R246, R249) -/

/-- A result waits for the freeing of a slot that the berth's own open segment holds (R94, R241). -/
def State.ownFreeing (s : State) (w : Writeback) : Bool :=
  let x := s.berth w.core w.berth
  let q := x.regs.queue w.queue
  w.esize != 0 && decide (q.cap ≤ (w.counter - x.freedHead w.queue).toNat)

/-- The conditions of R242 on a member's own results. -/
def State.commitReady (s : State) (c b : Nat) : Bool :=
  let x := s.berth c b
  x.error.isNone && x.closing && x.outstanding.isEmpty &&
    (s.writebacks.all fun e => !(e.2.core == c && e.2.berth == b) || s.ownFreeing e.2) &&
    ((s.core c).half0 ++ (s.core c).half1).all fun m => m.berth != b

/-- A held item as the members of a pair compare it: without the numbers that name its own records; commands are compared
as they issue (R249). -/
def Held.compared (h : Held) : List Held :=
  match h with
  | .command _ => []
  | .enq _ cl q p => [.enq 0 cl q p]
  | x => [x]

/-- A subscription without the progress of its pushes, as the members of a pair compare it. -/
def Sub.compared (t : Sub) : Sub :=
  { t with sync := none, begun := 0, landed := 0, returned := 0, stopped := false, rewound := false, ended := false }

/-- The members have established the same subscriptions in their open segments (R249). -/
def subsAgree (x y : Berth) : Bool :=
  let l (b : Berth) : List Sub := ((b.subs.map Prod.snd).filter fun t => t.fresh).map Sub.compared
  (l x).length == (l y).length && (l x).all (l y).contains

/-- The members' open segments agree (R249). -/
def pairAgrees (x y : Berth) : Bool :=
  !x.diverged && !y.diverged && x.regs.pc == y.regs.pc && x.deferred.isSome == y.deferred.isSome &&
    decide ((x.held.map Held.compared).flatten = (y.held.map Held.compared).flatten) && subsAgree x y &&
    x.segE.length == y.segE.length && (x.segE.zip y.segE).all fun k => k.1.agrees k.2

/-- The contribution of a COLL sent: to its record's home in this package, or to the I/O die on its way to another, where a port is in
service (R230, R232, R234). DESIGN CHOICE (log 39). -/
def State.sendColl (s : State) (id : Nat) (k : Command) (j : CollJob) : State :=
  if j.cluster < 128 then s.send (.coll id)
  else if !((List.range 36).any (s.inService 6)) then s.loseCommand id k j.dest .bulk
  else
    let s := s.carryData j.size (.quay (clusterOf k.core)) (homeEnd j.cluster)
    if j.receives then s else (s.setCommand id { k with done := 1 }).later (.engineCommandComplete id)

/-- A command released: it is ordered as if issued now (R242). Of a pair both members count an entry that RETS returns (R249, R412). -/
def State.releaseCommand (s : State) (c b id : Nat) : State :=
  match Map.get? s.commands id with
  | none => s
  | some k =>
    let k : Command := { k with held := false, pts := s.ptsOf c b k.path, order := s.stamp }
    let s := s.bump.setCommand id k
    match k.work, k.push with
    | .coll j, _ => s.sendColl id k j
    | .flushr, _ => (s.forceRows c b).later (.engineCommandComplete id)
    | _, some j => (s.onSubs c b j fun t => { t with returned := t.returned + 1 }).later (.engineGranuleCheck id)
    | _, none => s.later (.engineGranuleCheck id)

/-- A scratchpad write of a berth released, on its QWRITE path, though the bank be one of an exchange: R188 gives such a write to XCHG
too. DESIGN CHOICE (log 99). -/
def State.releaseSpad (s : State) (c b addr n : Nat) (f : Memory → Memory) : State :=
  (s.onSpad (clusterOf c) f).touchSpad c b pQwrite true addr n

/-- RELB released (R409): one that no longer fits its ring leaves an engine record. -/
def State.releaseRing (s : State) (c b n addr : Nat) (consumer : Bool) : State :=
  let x := s.berth c b
  match ((s.cluster (clusterOf c)).ring n).bind fun r => r.release addr consumer with
  | some r => s.setRing (clusterOf c) n r
  | none => s.engineRecord c b ((x.task.map Task.uid).getD 0) (engineWord tDescInvalid 0 0)

/-- A held item released to its path (R242). -/
def State.releaseItem (s : State) (c b : Nat) (h : Held) : State :=
  match h with
  | .store pa n v ms =>
    s.sendAccess { core := c, berth := b, slot := 0, launch := (s.berth c b).slot, kind := 1, fn := 0, handle := 0, pa := pa,
                   size := n, data := v, cmp := 0, signed := false, dest := 0, sc := false, scope := 0, ticket := none,
                   ms := ms, done := false, value := 0, marked := false, flags := 0, resends := 0, sent := 0, mark := false,
                   remote := false }
  | .sts a n v => s.releaseSpad c b a n fun m => m.write a n v
  | .swset a v => s.releaseSpad c b a 16 fun m => setSync m a v
  | .swadd a v => s.releaseSpad c b a 16 fun m => countSync m a v
  | .relb n a consumer => s.releaseRing c b n a consumer
  | .splicedAppend q n bytes sb u =>
    let x := (s.berth c b).regs.queue q
    (s.send (.notice x.peerCore x.peerBerth x.peerQueue)).send (.data x.peerCore x.peerBerth x.peerQueue n bytes sb u)
  | .enq r _ _ p => s.fillPlace r p
  | .command id => s.releaseCommand c b id

/-- An append to a SPLICED queue whose entry a PACK or SPMX has still to complete stays held (R399, R423).
DEDUCED (log 40). -/
def Berth.incomplete (x : Berth) (h : Held) : Bool :=
  match h with
  | .splicedAppend q n _ _ _ =>
    let y := x.regs.queue q
    (y.packPending || y.rowCount != 0) && y.pendingAt.toNat == n
  | _ => false

/-- The held items that a member performs: of the odd member of a pair only the appends to its own consumer (R249). -/
def State.ownItem (s : State) (c b : Nat) (h : Held) : Bool :=
  match h with
  | .splicedAppend .. => true
  | _ => !s.shadow c b

/-- A held item that writes scratchpad. -/
def Held.writesSpad (h : Held) : Bool :=
  match h with
  | .sts .. => true
  | .swset .. => true
  | .swadd .. => true
  | _ => false

/-- The odd member of a pair compares its copy of a result as the even member's lands (R249). -/
def State.landTwin (s : State) (w : Writeback) : State :=
  match (s.berth w.core w.berth).partner with
  | none => s
  | some (d, e) =>
    let same (x : Writeback) : Bool :=
      x.core == d && x.berth == e && x.queue == w.queue && x.counter == w.counter && x.first == w.first && x.esize != 0
    if w.core % 2 = 1 then s
    else
      match s.writebacks.find? fun x => same x.2 with
      | some (id, x) => s.writeResult id x
      | none => s

/-- Results that the freeing of a committed segment has held back land before the segment's items are released, in program order (R191,
R195): those whose slots no command has still to read, and where the segment's items write scratchpad, on the QWRITE path as the results
do, the others too, which a command that has still to read what they overwrite reads first. -/
def State.landOwn (s : State) (c b : Nat) (out : List Held) : State :=
  let writes := out.any Held.writesSpad
  (s.writebacks.filter fun e => e.2.core == c && e.2.berth == b).foldl (fun (s : State) e =>
    if s.pairHolds e.2 || (s.heldBack e.2 && !writes) then s
    else ((s.readOver c b e.2.addr e.2.esize).writeResult e.1 e.2).landTwin e.2) s

/-- A berth whose open segment has committed, with the items that stay held: RETRY is cleared (R244), and subscriptions that have ended
are gone (R430, R431). -/
def Berth.commit (x : Berth) (stay : List Held) : Berth :=
  let keep (t : Sub) : Sub := { t with fresh := false, rewound := false }
  let x := { x with
    held := stay, ckpt := none, closing := false, matched := false, diverged := false, rewinding := false, segE := []
    accWritten0 := 0, accWritten1 := 0
    subs := (x.subs.filter fun (e : Nat × Sub) => !e.2.ended).map fun (e : Nat × Sub) => (e.1, keep e.2)
    regs := { x.regs with retry := false } }
  if x.afterSync then x.settle else x

/-- The open segment of a berth committed: what its freeing held back lands, and its items are released in program order (R242). -/
def State.commitSegment (s : State) (c b : Nat) : State :=
  let x := s.berth c b
  let out := x.held.filter fun h => !(x.incomplete h) && s.ownItem c b h
  let t := (s.onBerth c b fun y => y.commit (x.held.filter x.incomplete)).landOwn c b out
  let t := (out.foldl (fun (t : State) h => t.releaseItem c b h) t).sendHeads s c b
  let t := t.writebacks.foldl (fun (t : State) e =>
    if e.2.core = c ∧ e.2.berth = b then t.later (.resultWriteback e.1) else t) t
  (t.berth c b).subs.foldl (fun (t : State) e => t.later (.stevedorePush c b e.1)) t

/-- Registers of the issuing berth returned to the values they had. -/
def State.keepRegs (s : State) (old : Regs) (l : List RegName) : State :=
  (l.foldl (fun (s : State) r => s.onRegs fun x =>
    if r.1 = 0 then x.putG r.2 (vget old.g r.2 0)
    else if r.1 = 1 then x.putH r.2 (vget old.h r.2 Handle.zero)
    else x.putK r.2 (vget old.k r.2 false)) s).dropPending l

/-- The line that an operation joins while it waits (R109). -/
def State.joinLine (s : State) (v : Verdict) : State :=
  match v with
  | .line r consumer => s.joinRing r consumer
  | _ => s

/-- A WAIT at the commit sees the scratchpad and the ready bits of the handles as they are then, another operation what stood there at
the start of its bundle (R114, R290). -/
def State.waitView (s : State) (i : Instr) (iss : Issue) : Issue :=
  if !Instr.isWait i then iss
  else
    let k := s.cluster (clusterOf iss.core)
    let b := s.berth iss.core iss.berth
    let h := Vector.ofFn fun (n : Fin 16) =>
      let old := vget iss.start.h n.val Handle.zero
      let new := vget b.regs.h n.val Handle.zero
      { old with ready := old.ready || (new.ready && new.vpn == old.vpn) }
    { iss with start := { iss.start with h := h }, spad := heldView b.held k.spad }

/-- The trap that a verdict raises. -/
def Verdict.raised (v : Verdict) : Option Trap :=
  match v with
  | .trap t => some t
  | _ => none

/-- A trap found as a deferred operation is performed: once every result of the bundle is there, the handler is entered at its bundle
(R265, R301). DEDUCED (log 14). -/
def State.trapDeferred (s : State) (t : Trap) (d : Deferred) : State :=
  if s.me.outstanding ≠ [] then s.onMe fun b => { b with deferred := some d, waiting := none }
  else
    (s.onMe fun b => { b with deferred := none, waiting := none }).enterHandler s.iss.core s.iss.berth t s.iss.start.pc

/-- The synchronising operations of a bundle whose segment has committed performed in order; one that must wait is tried again, and one
whose checks have come to fail traps (R239, R242). -/
def State.runDeferred (s : State) (iss : Issue) : List (Nat × Instr × List RegName) → State
  | [] => s.onMe fun b => { b with deferred := none, waiting := none, waited := [], timedOut := [] }.settle
  | (n, i, kept) :: l =>
    let s : State := { s with iss := s.waitView i { iss with slot := n } }
    let d : Deferred := { iss := iss, ops := (n, i, kept) :: l }
    match Instr.sem i with
    | none => s.runDeferred iss l
    | some o =>
      let v := allChecks (o.check s)
      if v.waits || (s.odd && s.twin.deferred.isSome) then
        let w := if s.odd then none else (s.waitLimit i).map fun limit => (n, limit)
        (s.joinLine v).onMe fun b => { b with deferred := some d, waiting := w }
      else
        match v.raised with
        | some t => s.trapDeferred t d
        | none =>
          let old := s.me.regs
          ((o.perform (s.dropPending (o.writes.map Prod.fst))).keepRegs old kept).runDeferred iss l

/-- The operations that the berth has deferred performed. -/
def State.performDeferred (s : State) (c b : Nat) : State :=
  match (s.berth c b).deferred with
  | some d => s.runDeferred d.iss d.ops
  | none => s

/-- The other member of a pair is where its segment can be compared, or the berth has none (R242, R249). -/
def State.comparable (s : State) (c b : Nat) : Bool :=
  match (s.berth c b).partner with
  | none => true
  | some (d, e) => (s.berth c b).matched || s.commitReady d e || (s.berth d e).status == .free

/-- The comparison of a pair's open segments failed, or made, in both members (R249). -/
def State.comparePair (s : State) (c b : Nat) : State :=
  match (s.berth c b).partner with
  | none => s
  | some (d, e) =>
    if (s.berth c b).matched || (s.berth d e).status == .free then s
    else if pairAgrees (s.berth c b) (s.berth d e) then
      let set (y : Berth) : Berth := { y with matched := true }
      ((s.onBerth c b set).onBerth d e set).later (.segmentCommit d e)
    else s.raiseDiverge c b d e 0

/-- SEGMENT_COMMIT. -/
def State.segmentCommit (s : State) (c b : Nat) : State :=
  if (s.berth c b).error.isSome then s
  else if (s.berth c b).ckpt.isNone then
    (s.onBerth c b fun y => { y with closing := false }).performDeferred c b
  else if !s.commitReady c b || !s.comparable c b then s
  else
    let s := s.comparePair c b
    match (s.berth c b).error, (s.berth c b).ckpt with
    | none, some _ => (s.commitSegment c b).performDeferred c b
    | _, _ => s
def execSegmentCommit (core berth : Nat) (s : State) : Host.Outcome State Fault Refusal :=
  .next (s.segmentCommit core berth)

/-! ## Rewind (R244, R245, R247) -/

/-- The berths spliced to a berth, and the other member of its pair, told of its rewind (R247). -/
def State.tellPartners (s : State) (c b : Nat) : State :=
  let l := (s.berth c b).partner.toList ++ (s.berth c b).regs.q.toList.filterMap Queue.partner
  l.foldl (fun (s : State) p => s.onBerth p.1 p.2 fun y =>
    { y with rewinders := if y.rewinders.contains (c, b) then y.rewinders else y.rewinders ++ [(c, b)] }) s

/-- The answer FAIL that a rewound berth was to take is due to the other member of its pair no more: the berth takes its page fault anew
(R250, R264). -/
def State.forgetFail (s : State) (x : Berth) : State :=
  match x.park, x.partner with
  | some (.failed _), some (d, e) => s.onBerth d e fun y => { y with park := y.park.filter fun p => !p.fails }
  | _, _ => s

/-- A rewind once nothing of the attempt is under way: a first failure executes the segment again, a second enters the
handler (R244, R245). Between segments the entry is the bundle at which the next one starts (R242). DEDUCED (log 60). -/
def State.finishRewind (s : State) (c b : Nat) (e : RollError) : State :=
  let x := s.berth c b
  let again := x.regs.retry
  let s := (s.discardResults c b).restoreSegment c b
  let s := if x.ckpt.isNone && x.status != .draining then
      s.onBerth c b fun y => { y with regs := { y.regs with entry := y.regs.pc } }
    else s
  let s := s.forgetFail x
  if e.released || again then
    let s := s.onBerth c b fun y => { y with regs := { y.regs with retry := false }, rewinding := false }
    s.enterHandler c b e.trap (s.berth c b).regs.entry
  else
    (s.onBerth c b fun y =>
      { y with
        rewinding := true
        regs := { y.regs with
          retry := true, rewinds := if y.regs.rewinds = 255 then 255 else y.regs.rewinds + 1 } }).tellPartners c b

/-- REWIND: an error of the rollback class taken at a bundle boundary of its berth. A berth whose task is over takes none.
DEDUCED (log 63). -/
def State.rewind (s : State) (c b : Nat) : State :=
  let x := s.berth c b
  match x.error with
  | none => s
  | some e =>
    if x.status = .free ∨ x.failed ∨ (x.status = .draining ∧ !e.released) then s.onBerth c b fun y => { y with error := none }
    else if (x.deferred.isSome || x.awaiting.isSome) && x.ckpt.isNone then s
    else
      let s := (s.discardItems c b).dropHeldBack c b
      if s.rewindBusy c b then s else s.finishRewind c b e
def execRewind (core berth : Nat) (s : State) : Host.Outcome State Fault Refusal := .next (s.rewind core berth)

/-! ## Limits of time (R56, R114) -/

/-- PBOUND_EXPIRY (R56): the trap is due at the berth's next bundle boundary. -/
def State.pboundExpiry (s : State) (c b : Nat) : State :=
  let x := s.berth c b
  if x.regs.bound ≠ 0 ∧ x.regs.bound < x.regs.count ∧ !x.sup then s.onBerth c b fun y => { y with pboundDue := true } else s
def execPboundExpiry (core berth : Nat) (s : State) : Host.Outcome State Fault Refusal :=
  .next (s.pboundExpiry core berth)

/-- WAIT_TIMEOUT (R114): the berth has been stalled on its WAIT for the limit that it names. -/
def State.waitTimeout (s : State) (c b : Nat) : State :=
  let x := s.berth c b
  match decide (x.status = .stalled), x.waiting with
  | true, some (n, limit) =>
    if Map.getD x.waited n 0 < limit ∨ x.timedOut.contains n then s
    else s.onBerth c b fun y => { y with timedOut := y.timedOut ++ [n] }
  | _, _ => s
def execWaitTimeout (core berth : Nat) (s : State) : Host.Outcome State Fault Refusal := .next (s.waitTimeout core berth)

/-! ## Cycles -/

/-- A row due where a condition holds. -/
def State.dueIf (s : State) (p : Bool) (i : Instr) : State := if p then s.later i else s

/-- A berth's counters after one more cycle of its core (R52, R56, R114, R301). DEDUCED (log 65). -/
def Berth.tick (x : Berth) (atPre : Bool) : Berth :=
  if x.status = .free then x
  else
    let counts := (x.status == .ready || (x.status == .stalled && !atPre)) && !x.sup
    let waited := match x.waiting with
      | some (n, _) => if x.status = .stalled then Map.set x.waited n (Map.getD x.waited n 0 + 1) else x.waited
      | none => x.waited
    { x with
      resident := x.resident + 1, sinceIssue := x.sinceIssue + 1, waited := waited
      regs := if counts then { x.regs with count := x.regs.count + 1 } else x.regs }

/-- What a berth's state makes due. -/
def State.berthRows (s : State) (c b : Nat) : State :=
  let x := s.berth c b
  if x.status = .free then s
  else
    let parks := match x.park with
      | some (.pageFault h _ _) => if x.status = BerthStatus.parked then none else some h
      | _ => none
    let late := match x.waiting with
      | some (n, limit) => decide (limit ≤ Map.getD x.waited n 0) && !x.timedOut.contains n
      | none => false
    let s := s.dueIf x.error.isSome (.rewind c b)
    let s := s.dueIf (x.closing || x.deferred.isSome) (.segmentCommit c b)
    let s := if x.status = .draining then (s.forceRows c b).later (.taskRetire c b) else s
    let s := s.dueIf (x.status == .evicting) (.evictionComplete c b)
    let s := s.dueIf parks.isSome (.pageFaultPark c b (parks.getD 0))
    let s := s.dueIf late (.waitTimeout c b)
    let s := s.dueIf (x.regs.bound != 0 && decide (x.regs.bound < x.regs.count) && !x.sup && !x.pboundDue) (.pboundExpiry c b)
    let s := s.dueIf (x.evictCause != 2 && (s.evictCauses c b).contains 2) (.timeSliceExpiry c b)
    x.subs.foldl (fun (s : State) e => s.later (.stevedorePush c b e.1)) s

/-- The SPLICED queues of a DRAINING berth unspliced once it holds nothing (R100). -/
def State.unspliceAll (s : State) (c b : Nat) : State :=
  let x := s.berth c b
  if x.status = .draining ∧ x.ckpt.isNone ∧ x.deferred.isNone then
    (List.range 4).foldl (fun (s : State) n =>
      if (x.regs.queue n).splice = .spliced then s.unsplice c b n else s) s
  else s

/-- What a core's engine commands, results, matrix engine and waiting tasks make due. -/
def State.coreRows (s : State) (c : Nat) : State :=
  let s := s.commands.foldl (fun (s : State) e =>
    if e.2.core ≠ c ∨ e.2.held ∨ e.2.suspended ∨ (Map.get? s.sentAt e.1).isSome then s
    else (s.later (if e.2.checked then .engineDataLand e.1 else .engineGranuleCheck e.1)).later (.engineCommandComplete e.1)) s
  let s := s.writebacks.foldl (fun (s : State) e => s.dueIf (e.2.core == c) (.resultWriteback e.1)) s
  let k := s.core c
  let s := s.dueIf (!k.half0.isEmpty) (.matrixPromotion c 0 0)
  let s := s.dueIf (!k.half1.isEmpty) (.matrixPromotion c 1 0)
  let free := (List.range 8).any fun b => (s.berth c b).status == .free
  let queued : Bool := (s.cluster (clusterOf c)).tqs.any fun e => !e.2.isEmpty
  let s := s.dueIf (k.waiting.any fun w => (w.task.ages || w.evicted) && w.task.effPrio != agedPrio w.task.basePrio (s.cycleOf c - w.since)) (.taskAge c)
  let s := s.dueIf (free && (queued || !k.waiting.isEmpty)) (.taskPlace c)
  let s := s.dueIf (s.ringOcc (clusterOf c) (c % 16) != 0) (.spillRefill (clusterOf c) (c % 16))
  s.coreIdle c

/-- A berth whose HINV is complete everywhere goes on (R161, R370). -/
def State.revocationEnd (s : State) (x : Berth) : Berth :=
  match x.revoking with
  | some va => if s.revokedQuiet va then { x with revoking := none }.settle else x
  | none => x

/-- A cycle of a core but for issue: its counters, its victim, and what they make due (R77, R203, R306). -/
def State.tickCore (s : State) (c : Nat) : State :=
  let pre := (List.range 8).map fun b => (s.nextHeader c b).pp
  let k := s.core c
  let berths := (List.range 8).foldl (fun (v : Vector Berth 8) b =>
    vset v b ((s.revocationEnd (vget v b Berth.reset)).tick (pre.getD b false))) k.berths
  let s := s.setCore c { k with cycle := k.cycle + 1, berths := berths }
  let s := (s.ageResiduals c).chooseVictim c
  let s := (List.range 8).foldl (fun (s : State) b => (s.unspliceAll c b).berthRows c b) s
  s.coreRows c

/-- What messages, accesses, walks, launches and pages make due in every cycle. -/
def State.deviceRows (s : State) : State :=
  let dropped (id : Nat) : Bool := (Map.get? s.sentAt id).isSome
  let s := s.messages.foldl (fun (s : State) e => s.dueIf (!(dropped e.1)) (e.2.row e.1)) s
  let s := s.accesses.foldl (fun (s : State) e =>
    s.dueIf (!(dropped e.1)) (if e.2.done then .accessReply e.1 e.2.mark
      else if e.2.sc && e.2.ticket.isNone then .ticketRequestArrive e.1 else .accessPerform e.1)) s
  let s := s.walks.foldl (fun (s : State) w => s.later (.xlatWalkComplete w.core w.berth w.handle)) s
  let s := s.launches.foldl (fun (s : State) e =>
    (e.2.toLoad.foldl (fun (s : State) x => s.later (.programLoad e.1 x.1 x.2)) s).later (.walkerOffer e.1) |>.later
      (.launchComplete e.1)) s
  let s := s.migrations.foldl (fun (s : State) m => s.later
    (if m.started then .migrationSwitchover (.ofNat 64 m.va) else .migrationStart (.ofNat 64 m.va) (.ofNat 64 m.frame))) s
  let s := s.refusedWrites.foldl (fun (s : State) e => s.later (.migrationWriteRetry e.1)) s
  let s := s.forced.foldl (fun (s : State) e => s.dueIf (!e.2.isEmpty) (.forcedAccumulateApply e.1)) s
  let s := s.dueIf (!s.fifo.isEmpty) .launchAdmission
  s.dueIf (!s.raised.isEmpty) .eventAccept

/-- The rows that waited for an event of their agent to be accepted are due again (R274). -/
def State.retryStalled (s : State) : State := { s with agenda := s.agenda ++ s.stalledRows, stalledRows := [] }

/-- A cycle of the device ends: seconds of the device clock, the hourly decay of the scores (R252), the arbitration of power every
2 µs (R283), the dry dock, the sources' timers (R234), and what is due. -/
def State.deviceTick (s : State) : State :=
  let s : State := { s with now := s.now + 1 }
  let s : State := if s.now % 2500000000 = 0 then { s with seconds := s.seconds + 1 } else s
  let s := s.dueIf (s.now % (3600 * 2500000000) == 0) .scoreHourlyDecay
  let s := s.dueIf (s.now % 5000 == 0) (.powerArbitration ((List.range 24).map (Config.freeRequest s.now)))
  s.retryStalled.drainNotify.dockTick.resendTick.deviceRows

/-- The turn passes to the next core; after the last, a cycle of the device ends. DESIGN CHOICE (log 1). -/
def State.advance (s : State) : State :=
  if s.turn + 1 < 1536 then { s with turn := s.turn + 1 } else ({ s with turn := 0 } : State).deviceTick

/-- The berth that the selector takes issues its bundle (R78). Its synchronising operations follow at once where nothing holds
its commit back. -/
def State.issueFrom (s : State) (c b : Nat) : State :=
  match s.fetchBundle c b with
  | .error _ => s
  | .ok x =>
    let s := s.openIssue c b x.hdr
    let ops := s.active x
    match s.judge x ops with
    | .pass =>
      let s := s.issueBundle x ops
      if (s.berth c b).closing then s.segmentCommit c b else s
    | _ => s

/-- The issue selector of a core: berths at a point of eviction that is due leave, the others are considered, and one
issues (R51, R78). -/
def State.selectIssue (s : State) (c : Nat) : State :=
  let due := (List.range 8).filter (s.evictDue c)
  let rest := (List.range 8).filter fun b => !(due.contains b)
  let s := due.foldl (fun (s : State) b => s.later (.evictionTake c b)) s
  let s := rest.foldl (fun (s : State) b => s.consider c b) s
  match s.pick c rest with
  | some b => s.issueFrom c b
  | none => s

/-- BUNDLE_ISSUE: a cycle of a core. The core whose turn it is passes the turn on; a core that its island's clock skips does
nothing (R283, R284). -/
def State.bundleIssue (s : State) (c : Nat) : State :=
  let runs := (s.island (islandOf (clusterOf c))).ticks s.now
  let s := if c = s.turn then s.advance else s
  if runs then (s.tickCore c).selectIssue c else s
def execBundleIssue (core : Nat) (s : State) : Host.Outcome State Fault Refusal := .next (s.bundleIssue core)

end Sys2Proof.Machine
end

