-- ==== Sys2Proof/Machine/Dispatch.lean ====
section
/-! DEFINITION. One arm per instruction: its meaning, or a refusal by name. -/

namespace Sys2Proof.Machine

def exec (i : Instr) (s : State) : Host.Outcome State Fault Refusal :=
  match i with
  | .powerOnReset => Sys2Proof.Machine.execPowerOnReset s
  | .firmwareReady failed starts => Sys2Proof.Machine.execFirmwareReady failed starts s
  | .launchWrite addr => Sys2Proof.Machine.execLaunchWrite addr s
  | .launchAdmission => Sys2Proof.Machine.execLaunchAdmission s
  | .programLoad slot entry core => Sys2Proof.Machine.execProgramLoad slot entry core s
  | .walkerOffer slot => Sys2Proof.Machine.execWalkerOffer slot s
  | .dispatcherOffer cluster tq => Sys2Proof.Machine.execDispatcherOffer cluster tq s
  | .taskPlace core => Sys2Proof.Machine.execTaskPlace core s
  | .taskAge core => Sys2Proof.Machine.execTaskAge core s
  | .timeSliceExpiry core berth => Sys2Proof.Machine.execTimeSliceExpiry core berth s
  | .evictionTake core berth => Sys2Proof.Machine.execEvictionTake core berth s
  | .evictionComplete core berth => Sys2Proof.Machine.execEvictionComplete core berth s
  | .bundleIssue core => Sys2Proof.Machine.execBundleIssue core s
  | .pboundExpiry core berth => Sys2Proof.Machine.execPboundExpiry core berth s
  | .segmentCommit core berth => Sys2Proof.Machine.execSegmentCommit core berth s
  | .rewind core berth => Sys2Proof.Machine.execRewind core berth s
  | .pageFaultPark core berth handle => Sys2Proof.Machine.execPageFaultPark core berth handle s
  | .taskRetire core berth => Sys2Proof.Machine.execTaskRetire core berth s
  | .launchComplete slot => Sys2Proof.Machine.execLaunchComplete slot s
  | .spillRefill cluster tq => Sys2Proof.Machine.execSpillRefill cluster tq s
  | .enqReservationArrive id => Sys2Proof.Machine.execEnqReservationArrive id s
  | .qsplRequestArrive id => Sys2Proof.Machine.execQsplRequestArrive id s
  | .qsplReplyArrive id => Sys2Proof.Machine.execQsplReplyArrive id s
  | .reservationNoticeArrive id => Sys2Proof.Machine.execReservationNoticeArrive id s
  | .splicedDataArrive id => Sys2Proof.Machine.execSplicedDataArrive id s
  | .mirroredHeadArrive id => Sys2Proof.Machine.execMirroredHeadArrive id s
  | .unspliceArrive id => Sys2Proof.Machine.execUnspliceArrive id s
  | .stevedorePush core berth sub => Sys2Proof.Machine.execStevedorePush core berth sub s
  | .engineGranuleCheck id => Sys2Proof.Machine.execEngineGranuleCheck id s
  | .engineDataLand id => Sys2Proof.Machine.execEngineDataLand id s
  | .engineCommandComplete id => Sys2Proof.Machine.execEngineCommandComplete id s
  | .resultWriteback id => Sys2Proof.Machine.execResultWriteback id s
  | .matrixPromotion core half upset => Sys2Proof.Machine.execMatrixPromotion core half upset s
  | .xlatWalkComplete core berth handle => Sys2Proof.Machine.execXlatWalkComplete core berth handle s
  | .accessPerform id => Sys2Proof.Machine.execAccessPerform id s
  | .accessReply id marked => Sys2Proof.Machine.execAccessReply id marked s
  | .acchArrive id => Sys2Proof.Machine.execAcchArrive id s
  | .acchApplyDone id => Sys2Proof.Machine.execAcchApplyDone id s
  | .acchReply id => Sys2Proof.Machine.execAcchReply id s
  | .residualAgeForce core berth entry => Sys2Proof.Machine.execResidualAgeForce core berth entry s
  | .forcedAccumulateApply slice => Sys2Proof.Machine.execForcedAccumulateApply slice s
  | .xstArrive id => Sys2Proof.Machine.execXstArrive id s
  | .barArrival id => Sys2Proof.Machine.execBarArrival id s
  | .barCompletionArrive id => Sys2Proof.Machine.execBarCompletionArrive id s
  | .collContribution id => Sys2Proof.Machine.execCollContribution id s
  | .migrationStart va frame => Sys2Proof.Machine.execMigrationStart va frame s
  | .migrationSwitchover va => Sys2Proof.Machine.execMigrationSwitchover va s
  | .dramUncorrectableError addr channel => Sys2Proof.Machine.execDramUncorrectableError addr channel s
  | .correctedError kind index => Sys2Proof.Machine.execCorrectedError kind index s
  | .packetCrcDrop link => Sys2Proof.Machine.execPacketCrcDrop link s
  | .transportResend id => Sys2Proof.Machine.execTransportResend id s
  | .dockRequest kind index => Sys2Proof.Machine.execDockRequest kind index s
  | .dockTestingStart kind index => Sys2Proof.Machine.execDockTestingStart kind index s
  | .dockWithdraw kind index => Sys2Proof.Machine.execDockWithdraw kind index s
  | .dockVerdict kind index runs => Sys2Proof.Machine.execDockVerdict kind index runs s
  | .scoreHourlyDecay => Sys2Proof.Machine.execScoreHourlyDecay s
  | .powerArbitration requests => Sys2Proof.Machine.execPowerArbitration requests s
  | .thermalThreshold island celsius => Sys2Proof.Machine.execThermalThreshold island celsius s
  | .eventAccept => Sys2Proof.Machine.execEventAccept s
  | .evqCompletionMessage => Sys2Proof.Machine.execEvqCompletionMessage s
  | .evqrdWrite value => Sys2Proof.Machine.execEvqrdWrite value s
  | .evqRingEnable base log2 => Sys2Proof.Machine.execEvqRingEnable base log2 s
  | .pfreplyRetry seq => Sys2Proof.Machine.execPfreplyRetry seq s
  | .pfreplyFail seq => Sys2Proof.Machine.execPfreplyFail seq s
  | .hostRevoke va => Sys2Proof.Machine.execHostRevoke va s
  | .lctrlPreempt slot => Sys2Proof.Machine.execLctrlPreempt slot s
  | .lctrlResume slot => Sys2Proof.Machine.execLctrlResume slot s
  | .lctrlTerminate slot => Sys2Proof.Machine.execLctrlTerminate slot s
  | .pinclr slice => Sys2Proof.Machine.execPinclr slice s
  | .poisonclr addr => Sys2Proof.Machine.execPoisonclr addr s
  | .banddone band => Sys2Proof.Machine.execBanddone band s
  | .retire kind index => Sys2Proof.Machine.execRetire kind index s
  | .mboxAttest nonce => Sys2Proof.Machine.execMboxAttest nonce s
  | .mboxPublicKey => Sys2Proof.Machine.execMboxPublicKey s
  | .mboxError cmd => Sys2Proof.Machine.execMboxError cmd s
  | .apertureRead offset size => Sys2Proof.Machine.execApertureRead offset size s
  | .apertureWrite offset size value => Sys2Proof.Machine.execApertureWrite offset size value s
  | .ctrlRegisterWrite offset value => Sys2Proof.Machine.execCtrlRegisterWrite offset value s
  | .ringcfgEnable value => Sys2Proof.Machine.execRingcfgEnable value s
  | .ringcfgDisable value => Sys2Proof.Machine.execRingcfgDisable value s
  | .nop => Sys2Proof.Machine.execNop s
  | .add f => Sys2Proof.Machine.execAdd f s
  | .sub_ f => Sys2Proof.Machine.execSub f s
  | .mul f => Sys2Proof.Machine.execMul f s
  | .mulh f => Sys2Proof.Machine.execMulh f s
  | .mulhn f => Sys2Proof.Machine.execMulhn f s
  | .div f => Sys2Proof.Machine.execDiv f s
  | .divn f => Sys2Proof.Machine.execDivn f s
  | .rem_ f => Sys2Proof.Machine.execRem f s
  | .remn f => Sys2Proof.Machine.execRemn f s
  | .and_ f => Sys2Proof.Machine.execAnd f s
  | .or_ f => Sys2Proof.Machine.execOr f s
  | .xor_ f => Sys2Proof.Machine.execXor f s
  | .andn f => Sys2Proof.Machine.execAndn f s
  | .shl f => Sys2Proof.Machine.execShl f s
  | .shr f => Sys2Proof.Machine.execShr f s
  | .sar f => Sys2Proof.Machine.execSar f s
  | .ror f => Sys2Proof.Machine.execRor f s
  | .min_ f => Sys2Proof.Machine.execMin f s
  | .max_ f => Sys2Proof.Machine.execMax f s
  | .minn f => Sys2Proof.Machine.execMinn f s
  | .maxn f => Sys2Proof.Machine.execMaxn f s
  | .clz f => Sys2Proof.Machine.execClz f s
  | .popc f => Sys2Proof.Machine.execPopc f s
  | .sel_ f => Sys2Proof.Machine.execSel f s
  | .bfx f => Sys2Proof.Machine.execBfx f s
  | .bfi f => Sys2Proof.Machine.execBfi f s
  | .cmp f => Sys2Proof.Machine.execCmp f s
  | .plog f => Sys2Proof.Machine.execPlog f s
  | .addi f => Sys2Proof.Machine.execAddi f s
  | .andi f => Sys2Proof.Machine.execAndi f s
  | .ori f => Sys2Proof.Machine.execOri f s
  | .xori f => Sys2Proof.Machine.execXori f s
  | .shli f => Sys2Proof.Machine.execShli f s
  | .shri f => Sys2Proof.Machine.execShri f s
  | .sari f => Sys2Proof.Machine.execSari f s
  | .muli f => Sys2Proof.Machine.execMuli f s
  | .cmpi f => Sys2Proof.Machine.execCmpi f s
  | .movi f => Sys2Proof.Machine.execMovi f s
  | .movh20 f => Sys2Proof.Machine.execMovh20 f s
  | .movh40 f => Sys2Proof.Machine.execMovh40 f s
  | .lds f => Sys2Proof.Machine.execLds f s
  | .sts f => Sys2Proof.Machine.execSts f s
  | .ld f => Sys2Proof.Machine.execLd f s
  | .st f => Sys2Proof.Machine.execSt f s
  | .xlat f => Sys2Proof.Machine.execXlat f s
  | .hinv f => Sys2Proof.Machine.execHinv f s
  | .hgen f => Sys2Proof.Machine.execHgen f s
  | .htst f => Sys2Proof.Machine.execHtst f s
  | .zset f => Sys2Proof.Machine.execZset f s
  | .zget f => Sys2Proof.Machine.execZget f s
  | .atom f => Sys2Proof.Machine.execAtom f s
  | .fence f => Sys2Proof.Machine.execFence f s
  | .waitGen f => Sys2Proof.Machine.execWaitGen f s
  | .waitBuf f => Sys2Proof.Machine.execWaitBuf f s
  | .waitHdl f => Sys2Proof.Machine.execWaitHdl f s
  | .waitTimeout core berth => Sys2Proof.Machine.execWaitTimeout core berth s
  | .swset f => Sys2Proof.Machine.execSwset f s
  | .swadd f => Sys2Proof.Machine.execSwadd f s
  | .acqb f => Sys2Proof.Machine.execAcqb f s
  | .acqbt f => Sys2Proof.Machine.execAcqbt f s
  | .relb f => Sys2Proof.Machine.execRelb f s
  | .bar f => Sys2Proof.Machine.execBar f s
  | .enq f => Sys2Proof.Machine.execEnq f s
  | .enqt f => Sys2Proof.Machine.execEnqt f s
  | .deq f => Sys2Proof.Machine.execDeq f s
  | .deqt f => Sys2Proof.Machine.execDeqt f s
  | .spawn f => Sys2Proof.Machine.execSpawn f s
  | .qcfg f => Sys2Proof.Machine.execQcfg f s
  | .qspl f => Sys2Proof.Machine.execQspl f s
  | .qusp f => Sys2Proof.Machine.execQusp f s
  | .qdist f => Sys2Proof.Machine.execQdist f s
  | .dset f => Sys2Proof.Machine.execDset f s
  | .dget f => Sys2Proof.Machine.execDget f s
  | .bmode f => Sys2Proof.Machine.execBmode f s
  | .brel f => Sys2Proof.Machine.execBrel f s
  | .bacq f => Sys2Proof.Machine.execBacq f s
  | .chk f => Sys2Proof.Machine.execChk f s
  | .chkq f => Sys2Proof.Machine.execChkq f s
  | .chkp f => Sys2Proof.Machine.execChkp f s
  | .br f => Sys2Proof.Machine.execBr f s
  | .brr f => Sys2Proof.Machine.execBrr f s
  | .call f => Sys2Proof.Machine.execCall f s
  | .ret f => Sys2Proof.Machine.execRet f s
  | .loop_ f => Sys2Proof.Machine.execLoop f s
  | .loopi f => Sys2Proof.Machine.execLoopi f s
  | .brk f => Sys2Proof.Machine.execBrk f s
  | .lidx f => Sys2Proof.Machine.execLidx f s
  | .trap f => Sys2Proof.Machine.execTrap f s
  | .eret => Sys2Proof.Machine.execEret s
  | .mfsr f => Sys2Proof.Machine.execMfsr f s
  | .mtsr f => Sys2Proof.Machine.execMtsr f s
  | .halt => Sys2Proof.Machine.execHalt s
  | .leaseReq f => Sys2Proof.Machine.execLeaseReq f s
  | .leaseEnd f => Sys2Proof.Machine.execLeaseEnd f s
  | .cop f => Sys2Proof.Machine.execCop f s
  | .mma f => Sys2Proof.Machine.execMma f s
  | .mmas f => Sys2Proof.Machine.execMmas f s
  | .mmag f => Sys2Proof.Machine.execMmag f s
  | .accr f => Sys2Proof.Machine.execAccr f s
  | .accw f => Sys2Proof.Machine.execAccw f s
  | .accz f => Sys2Proof.Machine.execAccz f s
  | .mtrn f => Sys2Proof.Machine.execMtrn f s
  | .cpy f => Sys2Proof.Machine.execCpy f s
  | .cpyt f => Sys2Proof.Machine.execCpyt f s
  | .cpym f => Sys2Proof.Machine.execCpym f s
  | .ldq f => Sys2Proof.Machine.execLdq f s
  | .stq f => Sys2Proof.Machine.execStq f s
  | .gath f => Sys2Proof.Machine.execGath f s
  | .scat f => Sys2Proof.Machine.execScat f s
  | .pref f => Sys2Proof.Machine.execPref f s
  | .pin f => Sys2Proof.Machine.execPin f s
  | .unpn f => Sys2Proof.Machine.execUnpn f s
  | .acch f => Sys2Proof.Machine.execAcch f s
  | .flushr f => Sys2Proof.Machine.execFlushr f s
  | .xst f => Sys2Proof.Machine.execXst f s
  | .subs f => Sys2Proof.Machine.execSubs f s
  | .rets f => Sys2Proof.Machine.execRets f s
  | .coll f => Sys2Proof.Machine.execColl f s
  | .unpk f => Sys2Proof.Machine.execUnpk f s
  | .pack f => Sys2Proof.Machine.execPack f s
  | .pscl f => Sys2Proof.Machine.execPscl f s
  | .spmx f => Sys2Proof.Machine.execSpmx f s
  | .spex f => Sys2Proof.Machine.execSpex f s
  | .pass_ v w => Sys2Proof.Machine.execPass v w s
  | .fadd v w => Sys2Proof.Machine.execFadd v w s
  | .fsub v w => Sys2Proof.Machine.execFsub v w s
  | .fmul v w => Sys2Proof.Machine.execFmul v w s
  | .faddf v w => Sys2Proof.Machine.execFaddf v w s
  | .fsubf v w => Sys2Proof.Machine.execFsubf v w s
  | .fmin v w => Sys2Proof.Machine.execFmin v w s
  | .fmax v w => Sys2Proof.Machine.execFmax v w s
  | .fabs v w => Sys2Proof.Machine.execFabs v w s
  | .fneg v w => Sys2Proof.Machine.execFneg v w s
  | .fcps v w => Sys2Proof.Machine.execFcps v w s
  | .fcmp v w => Sys2Proof.Machine.execFcmp v w s
  | .fsel v w => Sys2Proof.Machine.execFsel v w s
  | .frnd v w => Sys2Proof.Machine.execFrnd v w s
  | .rcp v w => Sys2Proof.Machine.execRcp v w s
  | .rsq v w => Sys2Proof.Machine.execRsq v w s
  | .exp2 v w => Sys2Proof.Machine.execExp2 v w s
  | .log2 v w => Sys2Proof.Machine.execLog2 v w s
  | .cvt v w => Sys2Proof.Machine.execCvt v w s
  | .cvti v w => Sys2Proof.Machine.execCvti v w s
  | .cvtf v w => Sys2Proof.Machine.execCvtf v w s
  | .iadd v w => Sys2Proof.Machine.execIadd v w s
  | .isub v w => Sys2Proof.Machine.execIsub v w s
  | .imul v w => Sys2Proof.Machine.execImul v w s
  | .imulh v w => Sys2Proof.Machine.execImulh v w s
  | .imin v w => Sys2Proof.Machine.execImin v w s
  | .imax v w => Sys2Proof.Machine.execImax v w s
  | .iminn v w => Sys2Proof.Machine.execIminn v w s
  | .imaxn v w => Sys2Proof.Machine.execImaxn v w s
  | .iand v w => Sys2Proof.Machine.execIand v w s
  | .ior v w => Sys2Proof.Machine.execIor v w s
  | .ixor v w => Sys2Proof.Machine.execIxor v w s
  | .ishl v w => Sys2Proof.Machine.execIshl v w s
  | .ishr v w => Sys2Proof.Machine.execIshr v w s
  | .isar v w => Sys2Proof.Machine.execIsar v w s
  | .icmp v w => Sys2Proof.Machine.execIcmp v w s
  | .isel v w => Sys2Proof.Machine.execIsel v w s
  | .rsum v w => Sys2Proof.Machine.execRsum v w s
  | .rmax v w => Sys2Proof.Machine.execRmax v w s
  | .rmin v w => Sys2Proof.Machine.execRmin v w s
  | .bcast v w => Sys2Proof.Machine.execBcast v w s
  | .perm v w => Sys2Proof.Machine.execPerm v w s
  | .lrot v w => Sys2Proof.Machine.execLrot v w s
  | .amax v w => Sys2Proof.Machine.execAmax v w s
  | .orderlyShutdown => Sys2Proof.Machine.execOrderlyShutdown s
  | .berthStateUncorrectableError core berth struct num => Sys2Proof.Machine.execBerthStateUncorrectableError core berth struct num s
  | .l2ScratchpadUncorrectableError inL2 unit addr => Sys2Proof.Machine.execL2ScratchpadUncorrectableError inL2 unit addr s
  | .migrationWriteRetry id => Sys2Proof.Machine.execMigrationWriteRetry id s
  | .ticketRequestArrive id => Sys2Proof.Machine.execTicketRequestArrive id s

end Sys2Proof.Machine
end

