-- ==== Sys2Proof/Machine/Step.lean ====
section
/-! DEFINITION. One step of the device, and a program's instruction placed where the next step fetches it. -/

namespace Sys2Proof.Machine

/-- The row that the next step performs: the first that is due, or the next cycle of the core whose turn it is.
DESIGN CHOICE (log 1). -/
def State.nextRow (s : State) : Instr :=
  match s.agenda with
  | i :: _ => i
  | [] => .bundleIssue s.turn

/-- One step. A package whose power has been cut does nothing but be reset (R284). DEDUCED (log 64). -/
def step (s : State) : Host.Outcome State Fault Refusal :=
  if s.off && s.nextRow != .powerOnReset then .fault .poweredOff
  else exec s.nextRow { s with agenda := s.agenda.tail }

/-- The launch of the placed program: core c alone, in slot 0. -/
def placedLaunch (c : Nat) : Launch :=
  { addr := 0, slot := 0, c0 := c, redundant := false, leasetol := false, checked := false, prio := 3, notifyQ := 0, notifyCl := 0, pbound := 0,
    accq := 0, resbase := 0, ctxarea := 0, levels := [{ kind := 1, mscope := 1, first := c, count := 1 }], programs := [],
    startVectors := [], nests := [], toLoad := [], toOffer := [], record := 0, iteration := 0, cursor := 0, ctxUsed := [],
    failures := 0, faulted := false, since := [], preempted := false, terminated := false }

/-- The task of the placed program. -/
def placedTask (pc : BitVec 11) : Task :=
  { slot := 0, uid := 0, source := .startVector 0, ages := true, entry := pc.toNat, basePrio := 3, effPrio := 3, args := [],
    origins := [], succs := [], failSucc := false, ctxSlot := 0, tables := [], partner := none }

/-- Berth 0 of a core with the placed task READY at its PC. -/
def placedBerth (x : Berth) : Berth :=
  { Berth.reset with status := .ready, regs := x.regs, task := some (placedTask x.regs.pc), entryNext := true }

/-- The state with the word of an instruction placed so that the next step fetches and runs it: a bundle of that one slot in
the instruction memory of the core whose turn it is, at the PC of berth 0, which runs a task of launch slot 0. It stands for the
admission of a launch, the load of its program and the placement of its task (log 31). -/
def State.withFetchWord (s : State) (nbits w : Nat) : State :=
  let c := s.turn
  let k := s.core c
  let pc := (s.berth c 0).regs.pc
  let word := oneSlotBundle ((tableSlot nbits w).getD .scalar) w
  let k : Core := { k with
    imem := Map.set k.imem pc.toNat { word := word, owner := some 0 }
    berths := vset k.berths 0 (placedBerth (s.berth c 0))
    lastIssued := 7 }
  { s.setCore c k with launches := Map.set s.launches 0 (placedLaunch c), agenda := [] }

end Sys2Proof.Machine
end

