-- ==== Sys2Proof/Safety.lean ====
section
/-! DEFINITION. What a safe run is, and the vocabulary of the statements: where an operation of a slot runs, and what an
instruction leaves as it was. -/

namespace Sys2Proof

/-- A run that does not stop within n steps. -/
def SafeRun (s : Machine.State) (n : Nat) : Prop := ∃ t, core.run n s = .next t

namespace Machine

/-- Memory, every scratchpad and the mailbox stand in their canonical form. -/
def State.canonical (s : State) : Prop :=
  s.mem.wf = true ∧ (∀ n, (s.cluster n).spad.wf = true) ∧ s.ctrl.mbox.wf = true

/-- An operation of a slot runs by itself in a state: it is legal, its predicate is true, it has the privilege it needs, its own
checks pass, its source entries are present and the queues have room for its appends (R91, R264, R289, R292). -/
def OpSem.runs (o : OpSem) (i : Instr) (s : State) : Bool :=
  let u := s.inSlot i.slotKind
  i.wellFormed && o.pred u && (o.priv u).isNone &&
    (allChecks (o.check u)).andThen (u.issueReady (o.sources u) (o.appends u)) == .pass

/-- Every byte of memory and of scratchpad reads as before. -/
def SameBytes (s t : State) : Prop :=
  (∀ a, t.mem.byte a = s.mem.byte a) ∧ ∀ n a, (t.cluster n).spad.byte a = (s.cluster n).spad.byte a

/-- Nothing but the issuing berth changes: every other field of the device, every other core, every other berth of the core, and
the core's own state are as before; so is every byte of memory and scratchpad. -/
def OnlyMe (s t : State) : Prop :=
  { t with cores := s.cores, iss := s.iss } = s ∧
  (t.iss.core = s.iss.core ∧ t.iss.berth = s.iss.berth ∧ t.iss.start = s.iss.start) ∧
  (∀ c, c ≠ s.iss.core → t.core c = s.core c) ∧
  { t.myCore with berths := s.myCore.berths } = s.myCore ∧
  (∀ b, b ≠ s.iss.berth → t.berth s.iss.core b = s.berth s.iss.core b) ∧
  SameBytes s t

/-- The outcome is a next state in which the issuing berth is x and nothing else has changed. -/
def Becomes (s : State) (o : Host.Outcome State Fault Refusal) (x : Berth) : Prop :=
  ∃ t, o = .next t ∧ OnlyMe s t ∧ t.me = x

/-- The outcome is a next state in which v has been written to g[d] (nothing, if d is 0) and nothing else has changed. -/
def WritesG (s : State) (o : Host.Outcome State Fault Refusal) (d : BitVec 5) (v : Word) : Prop :=
  Becomes s o { s.me with regs := s.me.regs.putG d.toNat v }

/-- The outcome is a next state in which v has been written to k[d] (nothing, if d is 0) and nothing else has changed. -/
def WritesK (s : State) (o : Host.Outcome State Fault Refusal) (d : BitVec 3) (v : Bool) : Prop :=
  Becomes s o { s.me with regs := s.me.regs.putK d.toNat v }

/-- The outcome is a next state in which the open segment of the issuing berth holds one more item and nothing else has changed
(R241). -/
def HoldsItem (s : State) (o : Host.Outcome State Fault Refusal) (h : Held) : Prop :=
  Becomes s o { s.me with held := s.me.held ++ [h] }

/-- The outcome is a next state in which the issuing berth goes on at a bundle and nothing else of it has changed. -/
def GoesTo (s : State) (o : Host.Outcome State Fault Refusal) (r : Regs) (pc : BitVec 11) : Prop :=
  ∃ t, o = .next t ∧ OnlyMe s t ∧ t.me = { s.me with regs := { r with pc := pc } } ∧ t.iss.taken = true

/-- A handle serves an access of n bytes at an offset (R160): loaded, ready, valid, of the page's present generation, without a fault,
within its region, aligned, permitted, and for a read without a poisoned granule. -/
def Usable (s : State) (h : BitVec 4) (off n : Nat) (needs : Needs) : Prop :=
  let x := s.srcH h
  x.loaded = true ∧ x.ready = true ∧ x.valid = true ∧ x.fault = 0 ∧
  (x.leaf = true → (s.walk (x.vpn.toNat * 2 ^ 16)).hasLeaf = true ∧ (s.walk (x.vpn.toNat * 2 ^ 16)).gen = x.gen.toNat) ∧ off + n ≤ 65536 ∧ off % n = 0 ∧
  (needs.rd = true → x.rd = true) ∧ (needs.w = true → x.w = true) ∧ (needs.atm = true → x.atm = true) ∧
  ((needs.rd || needs.atm) = true →
    ∀ g, g < 16 → off < 4096 * (g + 1) → 4096 * g < off + n → x.poison.getLsbD g = false)

/-- An operation that runs reads the entries of a list and then has an effect. -/
def Does (s : State) (i : Instr) (l : List Entry) (e : State → State) : Prop :=
  ∀ o, Instr.sem i = some o → o.runs i s = true → exec i s = .next (e ((s.inSlot i.slotKind).readEntries l))

/-- A V-stage operation that runs reads the queue entries among its operands, and its stage computes f. -/
def Stages (s : State) (i : Instr) (w : VSlot) (st : VStage) (f : StageIn → StageOut) : Prop :=
  Does s i (((stageOperands w st).filter fun o => decide (o < 0x80)).map fun o => ⟨o / 32, o % 32⟩) fun u => u.doStage w st f

/-- From one state to the next the issuing berth has appended an entry to a queue: of its own, the slot at the tail is reserved and
absent, the even member of a redundant pair making it so (R249), and the result is on its way to it; of a SPLICED one, the append is held
(R92, R98, R241). -/
def Appended (s t : State) (q bytes sideband unit : Nat) (flags : BitVec 7) : Prop :=
  let x := s.liveQ q
  SameBytes s t ∧ t.agenda = s.agenda ++ [.resultWriteback s.stamp] ∧
  (x.splice ≠ .spliced →
    t.me.regs.queue q = { x with tail := x.tail + 1 } ∧
    (s.odd = false → (t.myCluster.block (x.slotAddr x.tail)).present = false) ∧
    t.writebacks = Map.set s.writebacks s.stamp { s.flagsOnly flags with
      queue := q, counter := x.tail, addr := x.slotAddr x.tail, esize := x.esize, count := x.esize, bytes := bytes
      sideband := sideband, setsPresence := true, unit := unit }) ∧
  (x.splice = .spliced →
    t.me.regs.queue q = { x with remoteTail := x.remoteTail + 1 } ∧
    t.me.held = s.me.held ++ [.splicedAppend q x.remoteTail.toNat bytes sideband unit])

/-- An operation that runs appends one entry. -/
def Appends (s : State) (i : Instr) (q bytes sideband unit : Nat) (flags : BitVec 7) : Prop :=
  ∀ o, Instr.sem i = some o → o.runs i s = true → ∃ t, exec i s = .next t ∧ Appended s t q bytes sideband unit flags

/-- A matrix operation that runs takes the next place of its half-array, and the berth holds the engine (R32, R130). -/
def Queues (s : State) (i : Instr) (h : BitVec 2) (p : MatrixOp → Prop) : Prop :=
  ∀ o, Instr.sem i = some o → o.runs i s = true → ∃ t x, exec i s = .next t ∧ p x ∧
    t.myCore.halfQ (s.halfOf h) = s.myCore.halfQ (s.halfOf h) ++ [x] ∧ t.myCore.hold = some s.iss.berth ∧
    t.agenda = s.agenda ++ [.matrixPromotion s.iss.core (s.halfOf h) 0] ∧ SameBytes s t

/-- An E-slot operation that runs records a command, with the source entries that it is still to read: held until its segment commits, or with the check of its first granules due
(R241). The odd member of a redundant pair records it for the comparison alone (R249). No byte changes. -/
def Commands (s : State) (i : Instr) (op path : Nat) (w : Work) (sync : Option Nat) (held : Bool)
    (src : List Source) : Prop :=
  ∀ o, Instr.sem i = some o → o.runs i s = true → ∃ t k, exec i s = .next t ∧ t.me.segE = s.me.segE ++ [k] ∧
    k.op = op ∧ k.path = path ∧ k.work = w ∧ k.sync = sync ∧ k.core = s.iss.core ∧ k.berth = s.iss.berth ∧
    k.done = 0 ∧ k.unread = src ∧ SameBytes s t ∧
    (s.odd = true → t.commands = s.commands ∧ t.agenda = s.agenda) ∧
    (s.odd = false → t.commands = Map.set s.commands s.stamp k ∧ k.held = held ∧
      (held = true → t.me.held = s.me.held ++ [.command s.stamp] ∧ t.agenda = s.agenda) ∧
      (held = false → t.agenda = s.agenda ++ [.engineGranuleCheck s.stamp]))

/-! ## Numbers, as the statements speak of them (R117, R121 to R126, R140) -/

/-- The value is a number. -/
def FVal.finite : FVal → Bool
  | .num .. => true
  | _ => false

/-- The value is an infinity. -/
def FVal.infinite : FVal → Bool
  | .inf _ => true
  | _ => false

/-- The number that a value is; zero of a NaN or an infinity. -/
def FVal.rat : FVal → ℚ
  | .num n m e => (if n then -1 else 1) * (m : ℚ) * (2 : ℚ) ^ e
  | _ => 0

/-- The value is the number x, with a sign. -/
def FVal.IsNum (v : FVal) (x : ℚ) (neg : Bool) : Prop := v.finite = true ∧ v.rat = x ∧ v.neg = neg

/-- x rounded to a multiple of q (R121). -/
def roundUnits (mode : Rnd) (q x : ℚ) : ℚ :=
  let n : Int := ⌊x / q⌋
  let lo := n * q
  let hi := lo + q
  if lo = x then x
  else
    match mode with
    | .rn => if x - lo < hi - x then lo else if hi - x < x - lo then hi else if n % 2 = 0 then lo else hi
    | .rz => if 0 < x then lo else hi
    | .ru => hi
    | .rd => lo
    | .ro => if n % 2 = 0 then hi else lo

/-- Round(x, mode) to a format, without a limit on the exponent (R121). -/
def FloatFmt.roundRat (f : FloatFmt) (mode : Rnd) (x : ℚ) : ℚ :=
  roundUnits mode (2 ^ (max (Int.log 2 |x|) (1 - (f.bias : Int)) - f.mbits)) x

/-- The largest finite magnitude of a format, and its smallest normal (R117). -/
def FloatFmt.top (f : FloatFmt) : ℚ := (f.value f.largestCode).rat
def FloatFmt.least (f : FloatFmt) : ℚ := 2 ^ (1 - (f.bias : Int))

/-- INEXACT and UNDERFLOW of a result y for the exact x (R124, R125). -/
def FloatFmt.inexactFlags (f : FloatFmt) (x y : ℚ) : BitVec 7 :=
  flagIf (decide (y ≠ x)) flagInexact ||| flagIf (decide (y ≠ x ∧ x ≠ 0 ∧ |x| < f.least)) flagUnderflow

/-- A result is the exact x rounded once, with the sign of x and its flags; beyond the largest finite value it is another (R121, R124,
R125). -/
def FloatFmt.Rounds (f : FloatFmt) (mode : Rnd) (beyond : Result) (x : ℚ) (neg : Bool) (r : Result) : Prop :=
  let y := f.roundRat mode x
  (f.top < |y| → r = beyond) ∧
  (|y| ≤ f.top → r.1 < 2 ^ f.width ∧ (f.value r.1).IsNum y neg ∧ r.2 = f.inexactFlags x y)

/-- What an arithmetic result is beyond the largest finite value (R124), and what a conversion is (R125). -/
def FloatFmt.overflowed (f : FloatFmt) (mode : Rnd) (neg : Bool) : Result :=
  (if mode = .rn ∨ (mode = .ru ∧ neg = false) ∨ (mode = .rd ∧ neg = true) then f.infinity neg else f.largest neg,
    flagOverflow ||| flagInexact)
def FloatFmt.saturated (f : FloatFmt) (neg : Bool) : Result := (f.largest neg, flagSat ||| flagInexact)

/-- A result is an exact value rounded as an arithmetic result (R124). -/
def FloatFmt.IsRounded (f : FloatFmt) (mode : Rnd) (v : FVal) (r : Result) : Prop :=
  (v.isNan = true → r = (f.canonicalNaN, 0)) ∧
  (v.infinite = true → r = (f.infinity v.neg, 0)) ∧
  (v.finite = true → v.rat = 0 → r = (f.zero v.neg, 0)) ∧
  (v.finite = true → v.rat ≠ 0 → f.Rounds mode (f.overflowed mode v.neg) v.rat v.neg r)

/-- INVALID of a product: an operand signals, or 0 is multiplied by an infinity (R124). -/
def FVal.invalidTimes (a b : FVal) : Bool :=
  a.isSignalling || b.isSignalling || (a.isZero && b.infinite) || (a.infinite && b.isZero)

/-- The exact product of two values (R124). -/
def FVal.IsTimes (a b p : FVal) : Prop :=
  let nan : Prop := a.isNan = true ∨ b.isNan = true ∨ (a.isZero && b.infinite || a.infinite && b.isZero) = true
  (nan → p.isNan = true ∧ p.isSignalling = false) ∧
  (¬ nan → a.infinite = true ∨ b.infinite = true → p = .inf (a.neg != b.neg)) ∧
  (a.finite = true → b.finite = true → p.IsNum (a.rat * b.rat) (a.neg != b.neg))

/-- A result is the product of two values, rounded once (R124). -/
def FloatFmt.IsProduct (f : FloatFmt) (mode : Rnd) (a b : FVal) (r : Result) : Prop :=
  ∃ p q, a.IsTimes b p ∧ f.IsRounded mode p q ∧ r = (q.1, flagIf (a.invalidTimes b) flagInvalid ||| q.2)

/-- A result is the sum of two values, rounded once (R124). -/
def FloatFmt.IsSum (f : FloatFmt) (mode : Rnd) (a b : FVal) (r : Result) : Prop :=
  let x := a.rat + b.rat
  let neg : Bool := decide (x < 0)
  let nan : Prop := a.isNan = true ∨ b.isNan = true
  let opposite : Prop := a.infinite = true ∧ b.infinite = true ∧ a.neg ≠ b.neg
  (nan → r = (f.canonicalNaN, flagIf (a.isSignalling || b.isSignalling) flagInvalid)) ∧
  (opposite → r = (f.canonicalNaN, flagInvalid)) ∧
  (¬ nan → ¬ opposite → a.infinite = true ∨ b.infinite = true → r = (f.infinity (if a.infinite then a.neg else b.neg), 0)) ∧
  (a.finite = true → b.finite = true → x = 0 →
    r = (f.zero (if a.rat = 0 ∧ a.neg = b.neg then a.neg else mode == .rd), 0)) ∧
  (a.finite = true → b.finite = true → x ≠ 0 → f.Rounds mode (f.overflowed mode neg) x neg r)

/-- A result is the fused a·b + c, rounded once (R124, R359). -/
def FloatFmt.IsFused (f : FloatFmt) (mode : Rnd) (a b c : FVal) (r : Result) : Prop :=
  ∃ p q, a.IsTimes b p ∧ f.IsSum mode p c q ∧ r = (q.1, flagIf (a.invalidTimes b) flagInvalid ||| q.2)

/-- A result is a value converted to a floating format (R125, R126). -/
def FloatFmt.IsConverted (f : FloatFmt) (mode : Rnd) (v : FVal) (r : Result) : Prop :=
  match v with
  | .nan n sig =>
    r = if f.specials = .none then (0, flagInvalid) else (f.signBit n + f.canonicalNaN, flagIf sig flagInvalid)
  | .inf n => r = if f.specials = .ieee then (f.infinity n, 0) else f.saturated n
  | .num n m _ => (m = 0 → r = (f.zero n, 0)) ∧ (m ≠ 0 → f.Rounds mode (f.saturated n) v.rat n r)

/-- An integer is the exact x rounded and kept within the range of lo to hi (R126, R137). -/
def IntRounds (lo hi : Int) (mode : Rnd) (x : ℚ) (z : Int) (fl : BitVec 7) : Prop :=
  let y := roundUnits mode 1 x
  (y < lo → z = lo ∧ fl = flagSat ||| flagInexact) ∧ (hi < y → z = hi ∧ fl = flagSat ||| flagInexact) ∧
  (lo ≤ y → y ≤ hi → (z : ℚ) = y ∧ fl = flagIf (decide (y ≠ x)) flagInexact)

/-- An integer is a value converted to the range of lo to hi (R126). -/
def IsInteger (lo hi : Int) (mode : Rnd) (v : FVal) (z : Int) (fl : BitVec 7) : Prop :=
  (v.isNan = true → z = 0 ∧ fl = flagInvalid) ∧
  (v.infinite = true → z = (if v.neg then lo else hi) ∧ fl = flagSat ||| flagInexact) ∧
  (v.finite = true → IntRounds lo hi mode v.rat z fl)

/-- The least and the greatest integer of w bits (R118). -/
def least (w : Nat) (sgn : Bool) : Int := if sgn then -2 ^ (w - 1) else 0
def greatest (w : Nat) (sgn : Bool) : Int := if sgn then 2 ^ (w - 1) - 1 else 2 ^ w - 1

/-- A result is an exact nonzero x narrowed to an element format, or a value converted to it (R125, R126). -/
def Fmt.Rounds (g : Fmt) (mode : Rnd) (x : ℚ) (neg : Bool) (r : Result) : Prop :=
  match g with
  | .float f => f.Rounds mode (f.saturated neg) x neg r
  | .int w sgn => ∃ z, IntRounds (least w sgn) (greatest w sgn) mode x z r.2 ∧ r.1 = (z % 2 ^ w).toNat
  | .a64 => False
def Fmt.IsConverted (g : Fmt) (mode : Rnd) (v : FVal) (r : Result) : Prop :=
  match g with
  | .float f => f.IsConverted mode v r
  | .int w sgn => ∃ z, IsInteger (least w sgn) (greatest w sgn) mode v z r.2 ∧ r.1 = (z % 2 ^ w).toNat
  | .a64 => False

/-- An integer kept within the range of an a64 (R138). -/
def clampA64 (z : Int) : Int := max (-2 ^ 63) (min z (2 ^ 63 - 1))

end Machine

end Sys2Proof
end

