-- ==== Sys2Proof/Certificates/Slice0/Obligations.lean ====
section
/-! DEFINITION. The statements about the model. -/

open Sys2Proof Sys2Proof.Machine


/-! ## Encodings and steps -/

/-- Words written out from the encoding tables of the spec decode to the operations they stand for: one of each slot and
format (R292 to R300, and the examples of the reference entries). -/
def Obligations.DecodedWords : Prop :=
  decodeSlot .scalar 0x000E6281 = some [.add ⟨5, 6, 7, 0, 0⟩] ∧
  decodeSlot .scalar 0x000E628B = some [.or_ ⟨5, 6, 7, 0, 0⟩] ∧
  decodeSlot .scalar 0x001052A0 = some [.addi ⟨5, 5, 0, 1⟩] ∧
  decodeSlot .scalar 0xFFFFF2A9 = some [.movi ⟨5, 0xFFFFF⟩] ∧
  decodeSlot .scalar 0x080E611C = some [.cmp { k := 2, a := 6, b := 7, f := 2, p := 0, n := 0 }] ∧
  decodeSlot .scalar 0x0004006A = some [.call { o := 0x80, p := 0, n := 0 }] ∧
  decodeSlot .scalar 0xA0C062B0 = some [.lds { d := 5, a := 6, o := 12, s := 1, z := 2, p := 0 }] ∧
  decodeSlot .scalar 0x006622B6 = some [.st { d := 5, h := 2, a := 6, z := 3, p := 0, n := 0 }] ∧
  decodeSlot .scalar 0x01240070 = some [.trap { p := 2, i := 0x12 }] ∧
  decodeSlot .scalar 0x00000071 = some [.eret] ∧
  decodeSlot .scalar 0x00000074 = some [.halt] ∧
  decodeSlot .engine 0x00400081 = some [.cpy { b := 4, u := 0, l := 0, w := 1, p := 0, n := 0 }] ∧
  decodeSlot .matrix 0x00540001 = some [.mma { a := 0, b := 0x40, h := 1, z := 1, p := 0, n := 0 }] ∧
  decodeSlot .pack 0x00004001 = some [.unpk { s := 0, d := 2, m := 0, w := 0, r := 0, h := 0, p := 0, n := 0 }] ∧
  decodeSlot .vector 0x0004000000000010 = some [.exp2 .va (VSlot.read 0x0004000000000010),
    .pass_ .vb (VSlot.read 0x0004000000000010), .pass_ .vc (VSlot.read 0x0004000000000010)]

/-- Every legal operation of a slot decodes back from its word, with every operand at every value the encoding admits; a V slot's
word decodes to its three stages, the operation among them. -/
def Obligations.DecodeOfEncode : Prop :=
  ∀ (i : Instr) (k : SlotKind) (w : Nat), i.wellFormed = true → i.slotKind = some k → encode i = some w →
    ∃ l, decodeSlot k w = some l ∧ i ∈ l ∧ (k ≠ .vector → l = [i])

/-- No word decodes to an operation that is illegal, that belongs to another slot, or whose own word is another: no bit of a slot
word is dropped, and a word has one meaning. -/
def Obligations.EncodeOfDecode : Prop :=
  ∀ (k : SlotKind) (w : Nat) (l : List Instr) (i : Instr), decodeSlot k w = some l → i ∈ l →
    i.wellFormed = true ∧ i.slotKind = some k ∧ encode i = some w

/-- A step performs the row that is due: the first of the agenda, else the next cycle of the core whose turn it is. -/
def Sys2Proof.Claims.StepRuns : Prop :=
  ∀ s : State, s.off = false →
    step s = exec (s.agenda.head?.getD (.bundleIssue s.turn)) { s with agenda := s.agenda.tail }

/-- A step is never refused, and it faults exactly where power has been cut and the row is not the reset (R284): that the reset alone goes
on from there is the model's reading (log 64). -/
def Sys2Proof.Claims.StepStops : Prop :=
  ∀ s : State, (∀ r, step s ≠ .refused r) ∧
    ((∃ f, step s = .fault f) ↔ s.off = true ∧ s.nextRow ≠ .powerOnReset)

/-- A step with no row due is the next cycle of the core whose turn it is: the word at the PC of the berth that its selector takes is decoded,
and where the bundle's checks pass, its operations are issued, in the state that the core's counters and its selector leave; a bundle whose
checks do not pass leaves that state. -/
def Sys2Proof.Claims.StepIssues : Prop :=
  ∀ (s : State) (b : Nat) (m : ImemCell) (x : Bundle), s.off = false → s.agenda = [] →
    (s.island (islandOf (clusterOf s.turn))).ticks s.now = true →
    let c := s.turn
    let u := s.advance.tickCore c
    (∀ d, d < 8 → u.evictDue c d = false) →
    let v := (List.range 8).foldl (fun (t : State) d => t.consider c d) u
    v.pick c (List.range 8) = some b →
    Map.get? (v.core c).imem (v.berth c b).regs.pc.toNat = some m → m.owner = some (v.berth c b).slot → decodeBundle m.word = .ok x →
    let w := v.openIssue c b x.hdr
    let t := w.issueBundle x (w.active x)
    (w.judge x (w.active x) = .pass → step s = .next (if (t.berth c b).closing then t.segmentCommit c b else t)) ∧
    (w.judge x (w.active x) ≠ .pass → step s = .next w)

/-- An operation that an issued bundle performs in its slot has the effect of its execution by itself. -/
def Sys2Proof.Claims.SlotIsExec : Prop :=
  ∀ (s : State) (k : SlotOp), Machine.Instr.sem k.instr = some k.sem → k.sem.runs k.instr s = true →
    (s.atSlot k.slot).dropPending (k.sem.writes.map Prod.fst) = s.inSlot k.instr.slotKind →
    exec k.instr s = .next (s.performSlot k)

/-- A step performs the row that is due: the first of the agenda, else the next cycle of the core whose turn it is, in which the bundle at the PC of the berth that the selector takes is decoded and issued, each operation with the effect of its execution. A step is never refused, and faults exactly where power has been cut and the row is not the reset. The agenda is the model's choice of an order (log 1), and that nothing but the reset goes on after a cut of power is its reading (log 64). -/
def Obligations.StepRunsRow : Prop :=
  Claims.StepRuns ∧ Claims.StepStops ∧ Claims.StepIssues ∧ Claims.SlotIsExec

/-! ## What holds of every operation of a slot -/

/-- An operation whose predicate is false does nothing (R292). -/
def Sys2Proof.Claims.FalsePredicate : Prop :=
  ∀ (i : Instr) (o : OpSem) (s : State), Machine.Instr.sem i = some o → i.wellFormed = true →
    o.pred (s.inSlot i.slotKind) = false → exec i s = .next (s.inSlot i.slotKind)

/-- An operation that is not legal takes the trap ILLEGAL_OPCODE with its opcode (R272, R289), one of a V slot with the opcode and the
number of the stage that is not legal; of several the first is named, VA for a field of the whole chain and VC for a row destination: the
model's reading (log 7). -/
def Sys2Proof.Claims.IllegalOpcode : Prop :=
  ∀ (i : Instr) (o : OpSem) (k : SlotKind) (w : Nat) (s : State), Machine.Instr.sem i = some o → i.wellFormed = false →
    i.slotKind = some k → encode i = some w →
    let u := s.inSlot (some k)
    (k ≠ .vector → exec i s = .next (u.takeTrap (u.trap 0x02 (k.opcode w)))) ∧
    (k = .vector →
      let x := VSlot.read w
      let st : VStage := if 2 ^ 62 ≤ w then .va
        else if x.stageOk .va = false then .va else if x.stageOk .vb = false then .vb else if x.stageOk .vc = false then .vc
        else if x.fieldsOk = false then .va else .vc
      let n := if st = .va then 0 else if st = .vb then 1 else 2
      exec i s = .next (u.takeTrap (u.trap 0x02 (x.op st + n * 2 ^ 8))))

/-- An operation whose checks pass has its effect, and one whose checks do not is refused: it waits, traps, parks or asks. -/
def Sys2Proof.Claims.CheckedOperation : Prop :=
  ∀ (i : Instr) (o : OpSem) (s : State), Machine.Instr.sem i = some o → i.wellFormed = true →
    o.pred (s.inSlot i.slotKind) = true → o.priv (s.inSlot i.slotKind) = none →
    let u := s.inSlot i.slotKind
    (o.runs i s = true → exec i s = .next (o.effect (u.readEntries (o.sources u)))) ∧
    (o.runs i s = false →
      exec i s = .next (u.refuseBundle ((allChecks (o.check u)).andThen (u.issueReady (o.sources u) (o.appends u)))))

/-- An operation whose predicate is false does nothing, an illegal one traps ILLEGAL_OPCODE with its opcode, one whose checks pass has its effect, and one whose checks do not is refused: it waits, traps, parks or asks. -/
def Obligations.OperationOutcome : Prop :=
  Claims.FalsePredicate ∧ Claims.IllegalOpcode ∧ Claims.CheckedOperation

/-- The privileged operations, issued with SUP clear, take the trap PRIV with their opcode: ERET, HINV, MFSR of SR.LEASE and
SR.SUSP, MTSR of the registers that only supervisor mode writes, LEASE.REQ and LEASE.END, and BMODE of a bank that the launch does not own
or has no grant for (R147, R263, R303, R331, R370, R377). -/
def Obligations.PrivilegedInUserMode : Prop :=
  ∀ s : State, s.me.sup = false → s.iss.berth < 8 →
    let u := s.inSlot (some .scalar)
    exec .eret s = .next (u.takeTrap (u.trap 0x03 0x71)) ∧
    (∀ f : FHinv, exec (.hinv f) s = .next (u.takeTrap (u.trap 0x03 0x39))) ∧
    (∀ f : FLidx, s.predIs f.p 0 = true → f.i = 0x050 ∨ f.i = 0x051 →
      exec (.mfsr f) s = .next (u.takeTrap (u.trap 0x03 0x72))) ∧
    (∀ f : FMtsr, s.predIs f.p 0 = true →
      f.i.toNat ∈ [0x003, 0x004, 0x007, 0x008, 0x010, 0x011, 0x012, 0x013, 0x051] →
      exec (.mtsr f) s = .next (u.takeTrap (u.trap 0x03 0x73))) ∧
    (∀ f : SR2, s.predIs f.p f.n = true → exec (.leaseReq f) s = .next (u.takeTrap (u.trap 0x03 0x77)) ∧
      exec (.leaseEnd f) s = .next (u.takeTrap (u.trap 0x03 0x77))) ∧
    (∀ (f : FQA) (n : Nat), f.q ≠ 3 → n < 32 → (s.srcG f.a).getLsbD n = true →
      ((s.myCluster.bank n).owner ≠ some s.mySlot ∨ s.mySlot ∉ (s.myCluster.bank n).bmodeGrant) →
      exec (.bmode f) s = .next (u.takeTrap (u.trap 0x03 0x5E)))

/-! ## Registers -/

/-- g0 reads zero and discards writes, k0 reads true and discards writes; any other register reads as at the start of the bundle,
and a write changes it alone (R30, R290). -/
def Obligations.RegisterFile : Prop :=
  (∀ s : State, s.srcG 0 = 0 ∧ s.srcK 0 = true) ∧
  (∀ (s : State) (r : BitVec 5), r ≠ 0 → s.srcG r = vget s.iss.start.g r.toNat 0) ∧
  (∀ (s : State) (r : BitVec 3), r ≠ 0 → s.srcK r = vget s.iss.start.k r.toNat false) ∧
  (∀ (x : Regs) (v : Word), x.putG 0 v = x) ∧ (∀ (x : Regs) (v : Bool), x.putK 0 v = x) ∧
  (∀ (x : Regs) (r : Nat) (v : Word), 0 < r → r < 32 →
    { x.putG r v with g := x.g } = x ∧
    ∀ i, i < 32 → vget (x.putG r v).g i 0 = if i = r then v else vget x.g i 0) ∧
  (∀ (x : Regs) (r : Nat) (v : Bool), 0 < r → r < 8 →
    { x.putK r v with k := x.k } = x ∧
    ∀ i, i < 8 → vget (x.putK r v).k i false = if i = r then v else vget x.k i false)

/-! ## Scalar arithmetic and logic -/

/-- ADD, SUB, MUL, MULH, MULHN, AND, OR, XOR and ANDN write their result to g[rd], and nothing else changes. -/
def Sys2Proof.Claims.Arithmetic : Prop :=
  ∀ (f : SR3) (s : State), s.iss.berth < 8 → s.predIs f.p f.n = true →
    let a := s.srcG f.a
    let b := s.srcG f.b
    WritesG s (exec (.add f) s) f.d (.ofNat 64 (a.toNat + b.toNat)) ∧
    WritesG s (exec (.sub_ f) s) f.d (.ofInt 64 (a.toInt - b.toInt)) ∧
    WritesG s (exec (.mul f) s) f.d (.ofNat 64 (a.toNat * b.toNat)) ∧
    WritesG s (exec (.mulh f) s) f.d (.ofInt 64 (a.toInt * b.toInt / 2 ^ 64)) ∧
    WritesG s (exec (.mulhn f) s) f.d (.ofNat 64 (a.toNat * b.toNat / 2 ^ 64)) ∧
    WritesG s (exec (.and_ f) s) f.d (a &&& b) ∧
    WritesG s (exec (.or_ f) s) f.d (a ||| b) ∧
    WritesG s (exec (.xor_ f) s) f.d (a ^^^ b) ∧
    WritesG s (exec (.andn f) s) f.d (a &&& ~~~b)

/-- The shifts by a register use its low six bits, those by an immediate its six; zeros enter, or copies of bit 63; ROR
rotates. -/
def Sys2Proof.Claims.ShiftResults : Prop :=
  (∀ (f : SR3) (s : State), s.iss.berth < 8 → s.predIs f.p f.n = true →
    let a := s.srcG f.a
    let n := (s.srcG f.b).toNat % 64
    WritesG s (exec (.shl f) s) f.d (.ofNat 64 (a.toNat * 2 ^ n)) ∧
    WritesG s (exec (.shr f) s) f.d (.ofNat 64 (a.toNat / 2 ^ n)) ∧
    WritesG s (exec (.sar f) s) f.d (.ofInt 64 (a.toInt / 2 ^ n)) ∧
    ∃ v : Word, WritesG s (exec (.ror f) s) f.d v ∧ ∀ i, i < 64 → v.getLsbD i = a.getLsbD ((i + n) % 64)) ∧
  (∀ (f : SIsh) (s : State), s.iss.berth < 8 → s.predIs f.p 0 = true →
    let a := s.srcG f.a
    WritesG s (exec (.shli f) s) f.d (.ofNat 64 (a.toNat * 2 ^ f.c.toNat)) ∧
    WritesG s (exec (.shri f) s) f.d (.ofNat 64 (a.toNat / 2 ^ f.c.toNat)) ∧
    WritesG s (exec (.sari f) s) f.d (.ofInt 64 (a.toInt / 2 ^ f.c.toNat)))

/-- MIN, MAX, MINN and MAXN as R384 gives them, their latency and the words of its examples. -/
def Obligations.MinMax : Prop :=
  (∀ (f : SR3) (s : State), s.iss.berth < 8 → s.predIs f.p f.n = true →
    let a := s.srcG f.a
    let b := s.srcG f.b
    WritesG s (exec (.min_ f) s) f.d (.ofInt 64 (min a.toInt b.toInt)) ∧
    WritesG s (exec (.max_ f) s) f.d (.ofInt 64 (max a.toInt b.toInt)) ∧
    WritesG s (exec (.minn f) s) f.d (.ofNat 64 (min a.toNat b.toNat)) ∧
    WritesG s (exec (.maxn f) s) f.d (.ofNat 64 (max a.toNat b.toNat))) ∧
  (∀ f : SR3, (semMin f).writes = [((0, f.d.toNat), some 1)] ∧ (semMax f).writes = [((0, f.d.toNat), some 1)] ∧
    (semMinn f).writes = [((0, f.d.toNat), some 1)] ∧ (semMaxn f).writes = [((0, f.d.toNat), some 1)]) ∧
  (∀ (f : SR3) (s : State), s.predIs f.p f.n = false → ∀ i ∈ [Instr.min_ f, .max_ f, .minn f, .maxn f],
    exec i s = .next (s.inSlot (some .scalar))) ∧
  decodeSlot .scalar 0x000E6292 = some [.min_ ⟨5, 6, 7, 0, 0⟩] ∧
  decodeSlot .scalar 0x000E6293 = some [.max_ ⟨5, 6, 7, 0, 0⟩] ∧
  decodeSlot .scalar 0x000E6294 = some [.minn ⟨5, 6, 7, 0, 0⟩] ∧
  decodeSlot .scalar 0x000E6295 = some [.maxn ⟨5, 6, 7, 0, 0⟩] ∧
  (∀ (f : SR3) (w : Nat), w < 64 → 0 < w →
    ∀ op ∈ [0x12, 0x13, 0x14, 0x15], decodeSlot .scalar (op + f.place + w * 2 ^ 26) = none)

/-- DIV and REM truncate towards zero, DIVN and REMN are unsigned; −2^63 by −1 gives −2^63 and the remainder 0. -/
def Sys2Proof.Claims.Quotients : Prop :=
  ∀ (f : SR3) (s : State), s.iss.berth < 8 → s.predIs f.p f.n = true → s.srcG f.b ≠ 0 →
    let a := s.srcG f.a
    let b := s.srcG f.b
    WritesG s (exec (.div f) s) f.d (.ofInt 64 (a.toInt.tdiv b.toInt)) ∧
    WritesG s (exec (.rem_ f) s) f.d (.ofInt 64 (a.toInt - a.toInt.tdiv b.toInt * b.toInt)) ∧
    WritesG s (exec (.divn f) s) f.d (.ofNat 64 (a.toNat / b.toNat)) ∧
    WritesG s (exec (.remn f) s) f.d (.ofNat 64 (a.toNat - a.toNat / b.toNat * b.toNat))

/-- A divisor of zero takes the trap DIVZERO, and no register is written. -/
def Sys2Proof.Claims.DivisionByZero : Prop :=
  ∀ (f : SR3) (s : State), s.predIs f.p f.n = true → s.srcG f.b = 0 →
    ∀ i ∈ [Instr.div f, .divn f, .rem_ f, .remn f],
      let u := s.inSlot (some .scalar)
      exec i s = .next (u.takeTrap (u.trap 0x17 0))

/-- ADD, SUB, MUL, MULH, MULHN, AND, OR, XOR, ANDN, the shifts, DIV, DIVN, REM and REMN write their result to g[rd], and nothing else changes: DIV and REM truncate towards zero, DIVN and REMN are unsigned, −2^63 by −1 gives −2^63 and the remainder 0; a divisor of zero takes the trap DIVZERO. -/
def Obligations.ArithmeticResults : Prop :=
  Claims.Arithmetic ∧ Claims.ShiftResults ∧ Claims.Quotients ∧ Claims.DivisionByZero

/-- CLZ counts the leading zero bits: 64 of zero, and of any other value the place of its highest set bit below bit 63. -/
def Sys2Proof.Claims.ClzResult : Prop :=
  ∀ (f : SR2) (s : State), s.iss.berth < 8 → s.predIs f.p f.n = true →
    ∃ n : Nat, WritesG s (exec (.clz f) s) f.d (.ofNat 64 n) ∧ n ≤ 64 ∧ (s.srcG f.a).toNat < 2 ^ (64 - n) ∧
      (s.srcG f.a ≠ 0 → 2 ^ (63 - n) ≤ (s.srcG f.a).toNat)

/-- POPC as R403 gives it. -/
def Obligations.PopcCountsBits : Prop :=
  (∀ (f : SR2) (s : State), s.iss.berth < 8 → s.predIs f.p f.n = true →
    WritesG s (exec (.popc f) s) f.d (.ofNat 64 ((List.range 64).filter fun i => (s.srcG f.a).getLsbD i).length)) ∧
  (∀ (f : SR2) (s : State), s.predIs f.p f.n = false → exec (.popc f) s = .next (s.inSlot (some .scalar))) ∧
  (∀ f : SR2, (semPopc f).writes = [((0, f.d.toNat), some 1)]) ∧
  decodeSlot .scalar 0x00006297 = some [.popc ⟨5, 6, 0, 0⟩] ∧
  (∀ (f : SR2) (b fn : Nat), b < 32 → fn < 64 → 0 < b + fn →
    decodeSlot .scalar (0x17 + f.place + b * 2 ^ 17 + fn * 2 ^ 26) = none)

/-- BFX takes a bit field, zero- or sign-extended, and BFI replaces one; bit places and widths come from g[rb]. -/
def Sys2Proof.Claims.BitFields : Prop :=
  (∀ (f : FBfx) (s : State), s.iss.berth < 8 → s.predIs f.p f.n = true →
    let b := (s.srcG f.b).toNat
    let lsb := b % 64
    let w := min (b / 2 ^ 8 % 2 ^ 7) (64 - lsb)
    let x := (s.srcG f.a).toNat / 2 ^ lsb % 2 ^ w
    WritesG s (exec (.bfx f) s) f.d (if f.s = 1 then .ofInt 64 ((x : Int).bmod (2 ^ w)) else .ofNat 64 x)) ∧
  (∀ (f : SR3) (s : State), s.iss.berth < 8 → s.predIs f.p f.n = true →
    let b := (s.srcG f.b).toNat
    let lsb := b % 64
    let w := min (b / 2 ^ 8 % 2 ^ 7) (64 - lsb)
    ∃ v : Word, WritesG s (exec (.bfi f) s) f.d v ∧ ∀ i, i < 64 →
      v.getLsbD i = if lsb ≤ i ∧ i < lsb + w then (s.srcG f.a).getLsbD (i - lsb) else (s.srcG f.d).getLsbD i)

/-- The forms with an immediate: ADDI, ANDI and MULI sign-extend it, ORI and XORI zero-extend it; MOVI writes it sign-extended,
MOVH20 and MOVH40 replace bits [39:20] and [63:40]. -/
def Sys2Proof.Claims.ImmediateResults : Prop :=
  (∀ (f : SI) (s : State), s.iss.berth < 8 → s.predIs f.p 0 = true →
    let a := s.srcG f.a
    WritesG s (exec (.addi f) s) f.d (.ofInt 64 (a.toInt + f.i.toInt)) ∧
    WritesG s (exec (.andi f) s) f.d (a &&& .ofInt 64 f.i.toInt) ∧
    WritesG s (exec (.ori f) s) f.d (a ||| .ofNat 64 f.i.toNat) ∧
    WritesG s (exec (.xori f) s) f.d (a ^^^ .ofNat 64 f.i.toNat) ∧
    WritesG s (exec (.muli f) s) f.d (.ofInt 64 (a.toInt * f.i.toInt))) ∧
  (∀ (f : SW) (s : State), s.iss.berth < 8 →
    let d := s.srcG f.d
    WritesG s (exec (.movi f) s) f.d (.ofInt 64 f.i.toInt) ∧
    (∃ v : Word, WritesG s (exec (.movh20 f) s) f.d v ∧ ∀ i, i < 64 →
      v.getLsbD i = if 20 ≤ i ∧ i < 40 then f.i.getLsbD (i - 20) else d.getLsbD i) ∧
    ∃ v : Word, WritesG s (exec (.movh40 f) s) f.d v ∧ ∀ i, i < 64 →
      v.getLsbD i = if 40 ≤ i then (if i < 60 then f.i.getLsbD (i - 40) else f.i.getLsbD 19) else d.getLsbD i)

/-- CLZ, BFX and BFI, and the operations with an immediate: what each writes to g[rd]; nothing else changes. -/
def Obligations.FieldResults : Prop :=
  Claims.ClzResult ∧ Claims.BitFields ∧ Claims.ImmediateResults

/-- CMP, CMPI and PLOG write their condition to k[kd], and nothing else changes. -/
def Obligations.CompareResults : Prop :=
  let cond (c : Nat) (a b : Word) : Bool :=
    if c = 0 then a == b else if c = 1 then a != b else if c = 2 then decide (a.toInt < b.toInt)
    else if c = 3 then decide (a.toInt ≤ b.toInt) else if c = 4 then decide (a.toNat < b.toNat)
    else if c = 5 then decide (a.toNat ≤ b.toNat) else if c = 6 then a &&& b != 0 else a &&& b == 0
  (∀ (f : FCmp) (s : State), s.iss.berth < 8 → f.f.toNat < 8 → s.predIs f.p f.n = true →
    WritesK s (exec (.cmp f) s) f.k (cond f.f.toNat (s.srcG f.a) (s.srcG f.b))) ∧
  (∀ (f : FCmpi) (s : State), s.iss.berth < 8 →
    WritesK s (exec (.cmpi f) s) f.k (cond f.c.toNat (s.srcG f.a) (.ofInt 64 f.i.toInt))) ∧
  (∀ (f : FPlog) (s : State), s.iss.berth < 8 → f.f.toNat < 4 ∨ (f.f = 4 ∧ f.b = 0) → s.predIs f.p f.n = true →
    let a := s.srcK f.a
    let b := s.srcK f.b
    WritesK s (exec (.plog f) s) f.k (if f.f = 0 then a && b else if f.f = 1 then a || b else if f.f = 2 then a ^^ b
      else if f.f = 3 then a && !b else !a))

/-- SEL as R419 gives it. -/
def Obligations.SelSelects : Prop :=
  (∀ (f : SR3) (s : State), s.iss.berth < 8 →
    let t := s.srcK f.p ^^ (f.n == 1)
    WritesG s (exec (.sel_ f) s) f.d (if t then s.srcG f.a else s.srcG f.b) ∧
    (f.p = 0 → f.n = 0 → WritesG s (exec (.sel_ f) s) f.d (s.srcG f.a)) ∧
    (f.p = 0 → f.n = 1 → WritesG s (exec (.sel_ f) s) f.d (s.srcG f.b))) ∧
  (∀ f : SR3, (semSel f).writes = [((0, f.d.toNat), some 1)]) ∧
  decodeSlot .scalar 0x008E6298 = some [.sel_ ⟨5, 6, 7, 2, 0⟩] ∧
  decodeSlot .scalar 0x028E6298 = some [.sel_ ⟨5, 6, 7, 2, 1⟩] ∧
  (∀ (f : SR3) (w : Nat), w < 64 → 0 < w → decodeSlot .scalar (0x18 + f.place + w * 2 ^ 26) = none)

/-- NOP as R396 gives it: its word, its want of effect in either scalar slot, the PASS of the V slot's opcode 0, and the reserved
opcode 0 of the M, E and U slots. -/
def Obligations.NopDoesNothing : Prop :=
  (∀ s : State, Becomes s (exec .nop s) s.me) ∧
  decodeSlot .scalar 0 = some [.nop] ∧
  (∀ w, decodeSlot .scalar w = some [.nop] → w = 0) ∧
  (∀ w st, w.op st = 0 → vStageOp st w = some (.pass_ st w)) ∧
  (∀ w, w % 16 = 0 → decodeSlot .matrix w = none) ∧
  (∀ w, w % 32 = 0 → decodeSlot .engine w = none ∧ decodeSlot .pack w = none)

/-- ZSET writes a staging register of the core and ZGET reads one as at the start of its bundle. -/
def Sys2Proof.Claims.StagingRegisters : Prop :=
  (∀ (f : FZset) (s : State), s.predIs f.p f.n = true →
    ∃ t, exec (.zset f) s = .next t ∧ { t with cores := s.cores, iss := s.iss } = s ∧
      (∀ c, c ≠ s.iss.core → t.core c = s.core c) ∧
      t.core s.iss.core = { s.myCore with z := vset s.myCore.z f.z.toNat (s.srcG f.a) } ∧ SameBytes s t) ∧
  (∀ (f : FZget) (s : State), s.iss.berth < 8 → s.predIs f.p f.n = true →
    WritesG s (exec (.zget f) s) f.d (vget s.iss.z f.z.toNat 0))

/-- HGEN writes the generation of a loaded, ready handle; HTST writes a bit of any handle; QDIST writes the occupancy of a queue
of the berth's own, the mirrored occupancy of a spliced one, and 0 while it splices or is unconfigured. -/
def Sys2Proof.Claims.HandleAndQueueReads : Prop :=
  (∀ (f : FHgen) (s : State), s.iss.berth < 8 → s.predIs f.p f.n = true →
    (s.srcH f.h).loaded = true → (s.srcH f.h).ready = true →
    WritesG s (exec (.hgen f) s) f.d (.ofNat 64 (s.srcH f.h).gen.toNat)) ∧
  (∀ (f : FHtst) (s : State), s.iss.berth < 8 → f.s.toNat < 4 → s.predIs f.p f.n = true →
    let h := s.srcH f.h
    WritesK s (exec (.htst f) s) f.k (if f.s = 0 then h.ready else if f.s = 1 then h.valid
      else if f.s = 2 then h.ready && h.fault != 0 else h.loaded)) ∧
  (∀ (f : FQD) (s : State), s.iss.berth < 8 →
    let q := s.iss.start.queue f.q.toNat
    WritesG s (exec (.qdist f) s) f.d (.ofNat 64
      (if q.configured = false ∨ q.splice = .splicing then 0
       else if q.splice = .spliced ∨ q.splice = .unsplicing then (q.remoteTail.toNat + 2 ^ 16 - q.mirrored.toNat) % 2 ^ 16
       else (q.tail.toNat + 2 ^ 16 - q.head.toNat) % 2 ^ 16)))

/-- ZSET and ZGET write and read a staging register of the core; HGEN, HTST and QDIST write what they read of a handle or a queue. -/
def Obligations.StateReads : Prop :=
  Claims.StagingRegisters ∧ Claims.HandleAndQueueReads

/-- LIDX as R378 gives it. -/
def Obligations.LidxReadsIndex : Prop :=
  (∀ (f : FLidx) (s : State) (e : LoopEntry), s.iss.berth < 8 → f.i.toNat ≤ 5 → s.predIs f.p 0 = true →
    s.iss.start.loops[f.i.toNat]? = some e → WritesG s (exec (.lidx f) s) f.d (.ofNat 64 e.index.toNat)) ∧
  (∀ (f : FLidx) (s : State), f.i.toNat ≤ 5 → s.predIs f.p 0 = true → s.iss.start.loops.length ≤ f.i.toNat →
    let u := s.inSlot (some .scalar)
    exec (.lidx f) s = .next (u.takeTrap (u.trap 0x1A s.iss.start.loops.length))) ∧
  (∀ (f : FLidx) (s : State), f.i.toNat ≤ 5 → s.predIs f.p 0 = false →
    exec (.lidx f) s = .next (s.inSlot (some .scalar))) ∧
  (∀ (f : FLidx), 6 ≤ f.i.toNat → decodeSlot .scalar (0x6F + f.place) = none ∧ ∀ s : State,
    let u := s.inSlot (some .scalar)
    exec (.lidx f) s = .next (u.takeTrap (u.trap 0x02 0x6F))) ∧
  (∀ f : FLidx, (semLidx f).writes = [((0, f.d.toNat), some 1)]) ∧
  (∀ (f : FLidx) (r : Nat), 0 < r → r < 32 → decodeSlot .scalar (0x6F + f.place + r * 2 ^ 12) = none) ∧
  decodeSlot .scalar 0x002002EF = some [.lidx ⟨5, 0, 2⟩]

/-- COP as R339 gives it. -/
def Obligations.CopNoCoprocessor : Prop :=
  (∀ (f : FCop) (s : State), s.iss.berth < 8 → f.c = 0 → f.r = 1 → WritesG s (exec (.cop f) s) f.d 0) ∧
  (∀ (f : FCop) (s : State), s.iss.berth < 8 → f.c = 0 → f.r = 0 → Becomes s (exec (.cop f) s) s.me) ∧
  (∀ (f : FCop) (s : State), f.c ≠ 0 →
    let u := s.inSlot (some .scalar)
    exec (.cop f) s = .next (u.takeTrap (u.trap 0x02 0x78))) ∧
  (∀ f : FCop, Machine.Instr.syncs (.cop f) = true ∧ (f.r = 1 → (semCop f).writes = [((0, f.d.toNat), none)])) ∧
  decodeSlot .scalar 0x200E62F8 = some [.cop ⟨5, 6, 7, 0, 1⟩]

/-! ## Control flow -/

/-- BR, BRR, RET and CALL go on at their target; CALL writes g31 with the next bundle's index. Nothing else changes, the loop stack
included. -/
def Sys2Proof.Claims.Branches : Prop :=
  (∀ (f : SB) (s : State), s.iss.berth < 8 → s.predIs f.p f.n = true →
    let pc := s.iss.start.pc
    let target : BitVec 11 := .ofInt 11 (pc.toNat + f.o.toInt)
    GoesTo s (exec (.br f) s) s.me.regs target ∧
    GoesTo s (exec (.call f) s) (s.me.regs.putG 31 (.ofNat 64 ((pc.toNat + 1) % 2048))) target) ∧
  (∀ (f : FBrr) (s : State), s.iss.berth < 8 → s.predIs f.p f.n = true →
    GoesTo s (exec (.brr f) s) s.me.regs (.ofNat 11 (s.srcG f.a).toNat) ∧
    GoesTo s (exec (.ret f) s) s.me.regs (.ofNat 11 (s.srcG f.a).toNat))

/-- LOOP and LOOPI push an entry on the loop stack, or pass over the body where the count is 0; BRK removes the innermost entry and
goes on after its end; with six entries, or with none, they take LOOP_DEPTH. -/
def Sys2Proof.Claims.Loops : Prop :=
  (∀ (f : FLoop) (s : State), s.iss.berth < 8 → 1 ≤ f.i.toNat → f.i.toNat ≤ 2047 →
    let p := s.iss.start.pc
    let n : BitVec 32 := .ofNat 32 (s.srcG f.a).toNat
    let e : LoopEntry := { start := p + 1, stop := .ofNat 11 (p.toNat + f.i.toNat), remaining := n, index := 0 }
    let u := s.inSlot (some .scalar)
    (n = 0 → Becomes s (exec (.loop_ f) s)
      { s.me with regs := { s.me.regs with pc := .ofNat 11 (p.toNat + f.i.toNat + 1) } }) ∧
    (n ≠ 0 → s.iss.start.loops.length < 6 → Becomes s (exec (.loop_ f) s)
      { s.me with regs := { s.me.regs with loops := e :: s.me.regs.loops } }) ∧
    (n ≠ 0 → 6 ≤ s.iss.start.loops.length → exec (.loop_ f) s = .next (u.takeTrap (u.trap 0x1A s.iss.start.loops.length)))) ∧
  (∀ (f : FLoopi) (s : State), s.iss.berth < 8 → 1 ≤ f.l.toNat →
    let p := s.iss.start.pc
    let e : LoopEntry :=
      { start := p + 1, stop := .ofNat 11 (p.toNat + f.l.toNat), remaining := f.c.setWidth 32, index := 0 }
    let u := s.inSlot (some .scalar)
    (f.c = 0 → Becomes s (exec (.loopi f) s)
      { s.me with regs := { s.me.regs with pc := .ofNat 11 (p.toNat + f.l.toNat + 1) } }) ∧
    (f.c ≠ 0 → s.iss.start.loops.length < 6 → Becomes s (exec (.loopi f) s)
      { s.me with regs := { s.me.regs with loops := e :: s.me.regs.loops } }) ∧
    (f.c ≠ 0 → 6 ≤ s.iss.start.loops.length →
      exec (.loopi f) s = .next (u.takeTrap (u.trap 0x1A s.iss.start.loops.length)))) ∧
  (∀ (f : FBrk) (s : State) (e : LoopEntry) (l : List LoopEntry), s.iss.berth < 8 → s.predIs f.p f.n = true →
    s.iss.start.loops = e :: l → GoesTo s (exec (.brk f) s) { s.me.regs with loops := l } (e.stop + 1)) ∧
  (∀ (f : FBrk) (s : State), s.predIs f.p f.n = true → s.iss.start.loops = [] →
    let u := s.inSlot (some .scalar)
    exec (.brk f) s = .next (u.takeTrap (u.trap 0x1A 0)))

/-- What BR, JMP, JR, CALL, CALLR and RET, and LOOP, LOOPI and BRK, write: the next PC, the link register and the loop stack; and the traps LOOP_DEPTH and ILLEGAL_OPCODE of those that may not. -/
def Obligations.ControlFlow : Prop :=
  Claims.Branches ∧ Claims.Loops

/-! ## Exceptions -/

/-- The entry of a handler at a bundle boundary, with no segment open and no result outstanding: SR.CAUSE, SR.EPC and SR.EINFO are
written, SUP is set, SR.PBOUND.COUNT is 0 and the PC is SR.TVEC.HANDLER; every other register is kept, and ya, yb, yc and vsel read as
zero. The berth leaves the lines of the rings that it waited in. -/
def Sys2Proof.Claims.Entry : Prop :=
  ∀ (s : State) (t : Trap), s.iss.berth < 8 → s.me.ckpt = none → s.me.outstanding = [] → s.me.asked = [] → s.me.sup = false →
    s.myCore.tvec.setWidth 11 ≠ (0 : BitVec 11) →
    let v := s.takeTrap t
    OnlyMe (s.leaveRings s.iss.core s.iss.berth) v ∧
    v.me.regs = { s.me.regs with
      cause := .ofNat 64 (t.code + trapClass t.code * 2 ^ 8 + t.slot * 2 ^ 11 + t.timm * 2 ^ 16)
      epc := .ofNat 64 s.iss.start.pc.toNat
      einfo := .ofNat 64 t.info
      count := 0
      pc := .ofNat 11 s.myCore.tvec.toNat } ∧
    v.me.sup = true ∧ v.me.status = .ready ∧ v.me.task = s.me.task ∧ v.me.entryNext = true ∧ v.me.entryCause = v.me.regs.cause ∧
    v.me.ya = 0 ∧ v.me.yb = 0 ∧ v.me.yc = 0 ∧ v.me.vsel = 0

/-- A trap in an open segment waits for the segment's commit, which is due; one with results outstanding waits for them; neither
touches a register or a byte. -/
def Sys2Proof.Claims.TrapWaits : Prop :=
  ∀ (s : State) (t : Trap), s.iss.berth < 8 →
    (s.me.ckpt.isSome = true →
      (s.takeTrap t).agenda = s.agenda ++ [.segmentCommit s.iss.core s.iss.berth] ∧
      (s.takeTrap t).me = { s.me with status := .stalled, closing := true } ∧ SameBytes s (s.takeTrap t)) ∧
    (s.me.ckpt = none → s.me.outstanding ≠ [] →
      OnlyMe s (s.takeTrap t) ∧ (s.takeTrap t).me = { s.me with status := .stalled })

/-- A trap without a handler retires the task as failed with TASK_FAULT, or with code 0x0B for an error of the rollback class; a trap in
a handler is a double trap and retires it with DOUBLE_TRAP, which carries both causes. -/
def Sys2Proof.Claims.FailingTraps : Prop :=
  ∀ (s : State) (t : Trap), s.iss.berth < 8 → s.me.ckpt = none → s.me.outstanding = [] → s.me.asked = [] →
    let v := s.takeTrap t
    let gone := ({ s.me with status := .draining, failed := true, timedOut := [], waited := [], waiting := none } : Berth)
    let event (code a b : Nat) : Event :=
      { code := code, lslot := s.me.slot, berth := s.iss.berth, core := s.iss.core, arg0 := a, arg1 := b, command := none }
    let cause := (Trap.cause t).toNat
    (s.me.sup = true →
      v.me = gone ∧ v.raised = s.raised ++ [event 0x0E cause s.me.regs.cause.toNat] ∧
      v.agenda = s.agenda ++ [.eventAccept, .taskRetire s.iss.core s.iss.berth] ∧ SameBytes s v) ∧
    (s.me.sup = false → s.myCore.tvec.setWidth 11 = (0 : BitVec 11) →
      v.me = gone ∧
      v.raised = s.raised ++ [event (if trapClass t.code = 1 then 0x0B else 0x0C) cause s.iss.start.pc.toNat] ∧
      v.agenda = s.agenda ++ [.eventAccept, .taskRetire s.iss.core s.iss.berth] ∧ SameBytes s v)

/-- A trap: the entry of a handler writes SR.CAUSE, SR.EPC and SR.EINFO, sets SUP and goes to SR.TVEC; a trap in an open segment waits for its commit; one without a handler, or in a handler, retires the task as failed with its event. -/
def Obligations.HandlerEntry : Prop :=
  Claims.Entry ∧ Claims.TrapWaits ∧ Claims.FailingTraps

/-- TRAP raises SOFTWARE, of class 3: its slot and its immediate go to SR.CAUSE, its bundle to SR.EPC, 0 to SR.EINFO, and issue goes on
at the handler. -/
def Sys2Proof.Claims.SoftwareTrap : Prop :=
  ∀ (f : FTrap) (s : State), s.iss.berth < 8 → s.predIs f.p 0 = true → s.me.ckpt = none → s.me.outstanding = [] →
    s.me.asked = [] → s.me.sup = false → s.myCore.tvec.setWidth 11 ≠ (0 : BitVec 11) →
    ∃ t, exec (.trap f) s = .next t ∧ OnlyMe (s.leaveRings s.iss.core s.iss.berth) t ∧
      t.me.regs = { s.me.regs with
        cause := .ofNat 64 (0x318 + (if s.iss.slot = 1 then 1 else 2) * 2 ^ 11 + f.i.toNat * 2 ^ 16)
        epc := .ofNat 64 s.iss.start.pc.toNat
        einfo := 0
        count := 0
        pc := .ofNat 11 s.myCore.tvec.toNat } ∧
      t.me.sup = true

/-- ERET in supervisor mode clears SUP, writes a held engine record to SR.EINFO and goes on at SR.EPC; no other register
changes. -/
def Sys2Proof.Claims.ReturnFromHandler : Prop :=
  ∀ s : State, s.iss.berth < 8 → s.me.sup = true →
    ∃ t, exec .eret s = .next t ∧ OnlyMe s t ∧ t.iss.taken = true ∧
      t.me.sup = false ∧ t.me.heldEngine = none ∧ t.me.entryNext = true ∧
      t.me.regs = { s.me.regs with
        pc := .ofNat 11 s.me.regs.epc.toNat
        einfo := s.me.heldEngine.getD s.me.regs.einfo }

/-- HALT drains the berth, and its retirement is due; issued in supervisor mode the task retires as failed, with TASK_DROPPED carrying
SR.CAUSE as the last entry of a handler wrote it. -/
def Sys2Proof.Claims.Halt : Prop :=
  ∀ s : State, s.iss.berth < 8 →
    ∃ t, exec .halt s = .next t ∧ t.iss.taken = true ∧ SameBytes s t ∧
      t.me = { s.me with status := .draining, failed := s.me.failed || s.iss.sup } ∧
      (s.iss.sup = false → { t with cores := s.cores, iss := s.iss, agenda := s.agenda } = s ∧
        t.agenda = s.agenda ++ [.taskRetire s.iss.core s.iss.berth]) ∧
      (s.iss.sup = true → t.raised = s.raised ++
        [⟨0x0D, s.me.slot, s.iss.berth, s.iss.core, s.me.entryCause.toNat, s.me.regs.epc.toNat, none⟩])

/-- TRAP enters the handler with its immediate, ERET returns from it, and HALT drains the berth. -/
def Obligations.SystemControl : Prop :=
  Claims.SoftwareTrap ∧ Claims.ReturnFromHandler ∧ Claims.Halt

/-! ## Loads and stores -/

/-- LDS writes the bytes of scratchpad, as the berth sees them with its held stores at the start of the bundle, zero- or sign-extended; no
byte changes. That view is the model's reading of R195 and R290 (log 35); a bundle takes it where it opens (BundleIssue). -/
def Sys2Proof.Claims.LoadResult : Prop :=
  ∀ (f : FLds) (s : State), s.iss.berth < 8 → s.predIs f.p 0 = true →
    let n := 2 ^ f.z.toNat
    let a := ((s.srcG f.a).toNat + f.o.toNat * n) % 2 ^ 22
    a % n = 0 → s.bankCheck a n = .pass → s.spadQuiet a n = true → (s.myCluster.block a).mark = false →
    ∃ t, exec (.lds f) s = .next t ∧ SameBytes s t ∧
      t.me.regs = s.me.regs.putG f.d.toNat
        (if f.s = 1 then .ofInt 64 ((s.iss.spad.read a n : Int).bmod (2 ^ (8 * n)))
         else .ofNat 64 (s.iss.spad.read a n % 2 ^ (8 * n)))

/-- A misaligned LDS or STS takes ALIGN, one in a bank that is not the launch's own scratchpad takes BANK_OWNER; nothing is read or
written. -/
def Sys2Proof.Claims.ScratchpadTraps : Prop :=
  ∀ (s : State), let u := s.inSlot (some .scalar)
    (∀ f : FLds, s.predIs f.p 0 = true →
      let n := 2 ^ f.z.toNat
      let a := ((s.srcG f.a).toNat + f.o.toNat * n) % 2 ^ 22
      (a % n ≠ 0 → exec (.lds f) s = .next (u.takeTrap (u.trap 0x14 (2 ^ 60 + a)))) ∧
      (∀ e, a % n = 0 → s.myCluster.rangeError s.mySlot spadMode a n = some e →
        exec (.lds f) s = .next (u.takeTrap (u.trap 0x19 e)))) ∧
    (∀ f : FSts, s.predIs f.p 0 = true →
      let n := 2 ^ f.z.toNat
      let a := ((s.srcG f.a).toNat + f.o.toNat * n) % 2 ^ 22
      (a % n ≠ 0 → exec (.sts f) s = .next (u.takeTrap (u.trap 0x14 (2 ^ 60 + a)))) ∧
      (∀ e, a % n = 0 → s.myCluster.rangeError s.mySlot spadMode a n = some e →
        exec (.sts f) s = .next (u.takeTrap (u.trap 0x19 e))))

/-- LDS writes the bytes of scratchpad as the berth sees them at the start of its bundle, the model's reading (log 35); a misaligned LDS or STS traps ALIGN, one in a bank that is not the launch's own scratchpad BANK_OWNER. -/
def Obligations.ScratchpadLoad : Prop :=
  Claims.LoadResult ∧ Claims.ScratchpadTraps

/-- STS, ST, SWSET, SWADD and RELB are held: the open segment records the address and the value, and nothing else changes until the
segment commits (R241). The address of STS is that of LDS, that of ST the frame and the offset. -/
def Obligations.HeldStores : Prop :=
  (∀ (f : FSts) (s : State), s.iss.berth < 8 → s.predIs f.p 0 = true →
    let n := 2 ^ f.z.toNat
    let a := ((s.srcG f.a).toNat + f.o.toNat * n) % 2 ^ 22
    a % n = 0 → s.bankCheck a n = .pass → HoldsItem s (exec (.sts f) s) (.sts a n ((s.srcG f.d).toNat % 2 ^ (8 * n)))) ∧
  (∀ (f : FSt) (s : State), s.iss.berth < 8 → s.predIs f.p f.n = true →
    Usable s f.h (s.srcG f.a).toNat (2 ^ f.z.toNat) ⟨false, true, false⟩ →
    HoldsItem s (exec (.st f) s) (.store ((s.srcH f.h).frame.toNat * 2 ^ 16 + (s.srcG f.a).toNat) (2 ^ f.z.toNat)
      ((s.srcG f.d).toNat % 2 ^ (8 * 2 ^ f.z.toNat)) (s.srcH f.h).ms)) ∧
  (∀ (f : FAB) (s : State), s.iss.berth < 8 →
    let a := (s.srcG f.a).toNat % 2 ^ 22
    a % 16 = 0 → s.bankCheck a 16 = .pass →
    HoldsItem s (exec (.swset f) s) (.swset a ((s.srcG f.b).toNat % 2 ^ 32)) ∧
    HoldsItem s (exec (.swadd f) s) (.swadd a ((s.srcG f.b).toNat % 2 ^ 32))) ∧
  (∀ (f : FRelb) (s : State), s.iss.berth < 8 → (semRelb f).runs (.relb f) s = true →
    HoldsItem s (exec (.relb f) s) (.relb f.o.toNat ((s.srcG f.a).toNat % 2 ^ 22) (f.c == 1)))

/-- LD sends an access that reads through a handle, and its register awaits the reply; ATOM sends one that reads and writes, by way of
the sequencer where it is sequentially consistent; XLAT loads a handle that is not ready and whose walk is due,
as the model always has it where R159 lets a walk that has ended set READY at once (log 13). No byte changes before the access is performed. -/
def Obligations.MemoryRequests : Prop :=
  (∀ (f : FLd) (s : State), s.iss.berth < 8 → ¬ (f.z = 3 ∧ f.x = 1) → s.predIs f.p f.n = true →
    Usable s f.h (s.srcG f.a).toNat (2 ^ f.z.toNat) ⟨true, false, false⟩ → s.msReady f.h = .pass →
    ∃ t x, exec (.ld f) s = .next t ∧ t.accesses = Map.set s.accesses s.stamp x ∧
      x.kind = 0 ∧ x.pa = (s.srcH f.h).frame.toNat * 2 ^ 16 + (s.srcG f.a).toNat ∧ x.size = 2 ^ f.z.toNat ∧
      x.signed = (f.x == 1) ∧ x.dest = f.d.toNat ∧ x.core = s.iss.core ∧ x.berth = s.iss.berth ∧ x.done = false ∧
      t.agenda = s.agenda ++ [.accessPerform s.stamp] ∧ t.stamp = s.stamp + 1 ∧
      t.me = { s.me with outstanding := s.me.outstanding ++ [{ file := 0, num := f.d.toNat, req := s.stamp }] } ∧
      SameBytes s t) ∧
  (∀ (f : FAtom) (s : State), s.iss.berth < 8 → s.odd = false → (semAtom f).runs (.atom f) s = true →
    let n := if f.s = 1 then 8 else 4
    ∃ t x, exec (.atom f) s = .next t ∧ t.accesses = Map.set s.accesses s.stamp x ∧
      x.kind = 2 ∧ x.fn = f.f.toNat ∧ x.pa = (s.srcH f.h).frame.toNat * 2 ^ 16 + (s.srcG f.a).toNat % 2 ^ 16 ∧
      x.size = n ∧ x.data = (s.srcG f.b).toNat % 2 ^ (8 * n) ∧ x.cmp = (s.srcG f.d).toNat % 2 ^ (8 * n) ∧
      x.dest = f.d.toNat ∧ x.sc = (f.c == 1) ∧
      t.agenda = s.agenda ++ [if f.c = 1 then .ticketRequestArrive s.stamp else .accessPerform s.stamp] ∧
      t.me = { s.me with outstanding := s.me.outstanding ++ [{ file := 0, num := f.d.toNat, req := s.stamp }] } ∧
      SameBytes s t) ∧
  (∀ (f : FXlat) (s : State), s.iss.berth < 8 → s.predIs f.p f.n = true →
    let va := (s.srcG f.a).toNat
    let h : Handle := { Handle.zero with vpn := .ofNat 40 (va / 2 ^ 16), loaded := true, valid := true }
    ∃ t, exec (.xlat f) s = .next t ∧
      t.me = { s.me with regs := s.me.regs.putH f.h.toNat h } ∧
      t.agenda = s.agenda ++ [.xlatWalkComplete s.iss.core s.iss.berth f.h.toNat] ∧
      t.walks = (s.walks.filter fun x => !(x.core == s.iss.core && x.berth == s.iss.berth && x.handle == f.h.toNat)) ++
        [{ core := s.iss.core, berth := s.iss.berth, handle := f.h.toNat, va := va }] ∧ SameBytes s t)

/-- A byte written is read back, every other byte reads as before, and the memory keeps its canonical form. -/
def Sys2Proof.Claims.Bytes : Prop :=
  (∀ (m : Memory) (a : Nat) (v : Byte), m.wf = true →
    (m.put a v).wf = true ∧ (m.put a v).byte a = v ∧ ∀ b, b ≠ a → (m.put a v).byte b = m.byte b) ∧
  (∀ (m : Memory) (a n v : Nat), m.wf = true →
    (m.write a n v).wf = true ∧ (m.write a n v).read a n = v % 2 ^ (8 * n) ∧
    ∀ b, b < a ∨ a + n ≤ b → (m.write a n v).byte b = m.byte b) ∧
  (∀ (m m' : Memory), m.wf = true → m'.wf = true → (∀ a, m.byte a = m'.byte a) → m = m')

/-- The checks of an access through a handle, in their order: HANDLE_INVALID where it is not loaded, a wait where it is not ready,
HANDLE_STALE where it is not valid or the page of its leaf has been revoked since (a translation that found no leaf has no generation to
compare, the model's reading, log 28; one without a fault found a leaf), its fault (a page fault parks, POISON is an error of the rollback
class, any other is PROT), PROT beyond the region, ALIGN, PROT without the permission, and POISON of the first poisoned granule that a
read or an ATOM touches. -/
def Obligations.HandleChecks : Prop :=
  (∀ (s : State) (h : BitVec 4) (off n : Nat) (needs : Needs),
    let x := s.srcH h
    let v := s.accessCheck h off n needs
    let info := off % 2 ^ 17 * 16 + h.toNat
    let w := s.walk (x.vpn.toNat * 2 ^ 16)
    let revoked := x.leaf = true ∧ (w.hasLeaf = false ∨ w.gen ≠ x.gen.toNat)
    let current := x.loaded = true ∧ x.ready = true ∧ x.valid = true ∧ ¬ revoked
    let forbidden := needs.rd = true ∧ x.rd = false ∨ needs.w = true ∧ x.w = false ∨ needs.atm = true ∧ x.atm = false
    let hit (g : Nat) := g < 16 ∧ off < 4096 * (g + 1) ∧ 4096 * g < off + n ∧ x.poison.getLsbD g = true
    (x.loaded = false → v = .trap (s.trap 0x08 info)) ∧
    (x.loaded = true → x.ready = false → v = .wait) ∧
    (x.loaded = true → x.ready = true → (x.valid = false ∨ revoked) → v = .trap (s.trap 0x09 info)) ∧
    (current → x.fault = 0x0A → v = .park h.toNat needs.w (s.trap 0x0A (x.vpn.toNat * 2 ^ 16 + off % 2 ^ 16))) ∧
    (current → x.fault = 0x0C → v = .poison (s.trap 0x0C (4 * 2 ^ 60 + h.toNat))) ∧
    (current → x.fault ∉ [0, 0x0A, 0x0C] → v = .trap (s.trap 0x0B (3 * 2 ^ 60 + h.toNat))) ∧
    (current → x.fault = 0 → 65536 < off + n → v = .trap (s.trap 0x0B info)) ∧
    (current → x.fault = 0 → off + n ≤ 65536 → off % n ≠ 0 → v = .trap (s.trap 0x14 info)) ∧
    (current → x.fault = 0 → off + n ≤ 65536 → off % n = 0 → forbidden → v = .trap (s.trap 0x0B info)) ∧
    (current → x.fault = 0 → off + n ≤ 65536 → off % n = 0 → ¬ forbidden → (needs.rd || needs.atm) = true →
      ∀ g, hit g → (∀ i, i < g → ¬ hit i) → v = .poison (s.trap 0x0C (g * 16 + h.toNat))) ∧
    (Usable s h off n needs → v = .pass)) ∧
  ∀ (s : State) (va : Nat), (s.walk va).crit = false → (s.loadHandle va).fault = 0 → (s.loadHandle va).leaf = true

/-! ## Synchronisation -/

/-- WAIT ends where its condition holds, or where it is tested once or has timed out: it writes its outcome (the trap form writes
none), and nothing else changes but the clock of a form that reads scratchpad, or finds a buffer that a copy made FULL; with its timeout expired the trap form takes WAIT_TIMEOUT,
and otherwise it waits. -/
def Sys2Proof.Claims.Waits : Prop :=
  let ended (s : State) (c : Bool) (k : BitVec 3) (t : BitVec 1) (x : Berth) : Berth :=
    { x with
      timedOut := x.timedOut.filter fun n => n != s.iss.slot
      waited := Map.erase x.waited s.iss.slot
      regs := if t = 1 then x.regs else x.regs.putK k.toNat c }
  let outcome (s v : State) (o : Host.Outcome State Fault Refusal) (c : Bool) (d : BitVec 5) (k : BitVec 3) (t : BitVec 1) (form : Nat) : Prop :=
    let u := s.inSlot (some .scalar)
    let last := (s.srcG d).toNat % 2 ^ 32 = 0 ∨ u.iss.slot ∈ s.me.timedOut
    (c = true → o = .next (v.onMe (ended u c k t))) ∧
    (c = false → last → t = 0 → o = .next (v.onMe (ended u c k t))) ∧
    (c = false → last → t = 1 → o = .next (u.takeTrap (u.trap 0x15 form))) ∧
    (c = false → ¬ last → Becomes s o { s.me with status := .stalled })
  ∀ s : State, s.iss.berth < 8 → s.odd = false →
    let u := s.inSlot (some .scalar)
    (∀ f : FWaitGen, (f.t = 0 ∨ f.k = 0) →
      let a := (s.srcG f.a).toNat % 2 ^ 22
      a % 16 = 0 → s.bankCheck a 16 = .pass →
      let gen := s.iss.spad.read (a + 8) 4
      outcome s (u.touchSpad s.iss.core s.iss.berth pQread false (a + 8) 4) (exec (.waitGen f) s)
        (decide ((gen + 2 ^ 32 - (s.srcG f.b).toNat % 2 ^ 32) % 2 ^ 32 < 2 ^ 31)) f.d f.k f.t 0) ∧
    (∀ (f : FWaitBuf) (r : Ring), (f.t = 0 ∨ f.k = 0) → s.ringCheck f.r.toNat = .pass →
      s.myCluster.ring f.r.toNat = some r → (s.srcG f.a).toNat < r.count →
      let full := r.state (s.srcG f.a).toNat == .full
      outcome s (if full then u.raisePts s.iss.core s.iss.berth pQread (Map.getD r.times (s.srcG f.a).toNat 0) else u)
        (exec (.waitBuf f) s) full f.d f.k f.t 1) ∧
    (∀ f : FWaitHdl, (f.t = 0 ∨ f.k = 0) → outcome s u (exec (.waitHdl f) s) (s.srcH f.h).ready f.d f.k f.t 2)

/-- FENCE, once the paths it names have nothing in flight, joins their clocks; BAR joins those of every path, and its arrival is on its
way; HINV revokes the page of an address, and its berth goes on once the revocation is complete. -/
def Sys2Proof.Claims.FencesAndBarriers : Prop :=
  ∀ s : State, s.iss.berth < 8 →
    let u := s.inSlot (some .scalar)
    (∀ f : FFence, f.s.toNat ≤ s.myScope → s.pathsQuiet s.iss.core s.iss.berth f.m.toNat = true →
      exec (.fence f) s = .next (u.joinClocks s.iss.core s.iss.berth f.m.toNat)) ∧
    (∀ f : FBar, s.odd = false → u.barCheck f = .pass → s.pathsQuiet s.iss.core s.iss.berth 0xFF = true →
      let j := u.joinClocks s.iss.core s.iss.berth 0xFF
      exec (.bar f) s = .next ((j.onMe fun b => { b with awaiting := some j.stamp, atBar := true }).send
        (.bar j.iss.core j.iss.berth j.mySlot (j.srcG f.a) (f.w == 1)))) ∧
    (∀ f : FHinv, s.odd = false → s.me.sup = true → exec (.hinv f) s =
      .next ((u.revoke (s.srcG f.a).toNat).onMe fun b => { b with revoking := some (s.srcG f.a).toNat }))

/-- WAIT ends where its condition holds, its timeout is over or it is tested once; FENCE and BAR join clocks once their paths are quiet; HINV revokes a page. -/
def Obligations.Synchronisation : Prop :=
  Claims.Waits ∧ Claims.FencesAndBarriers

/-- ACQB takes the next buffer of a ring, EMPTY for a producer and FULL for a consumer, and writes its address; ACQBT writes whether it
did; a consumer's reads are ordered after the copy that filled the buffer; where no buffer is available, or another berth has waited longer at the counter, ACQB waits in its line. -/
def Sys2Proof.Claims.BufferRings : Prop :=
  ∀ (s : State) (r : Ring), s.iss.berth < 8 → s.odd = false →
    let u := s.inSlot (some .scalar)
    let index (c : Bool) : Nat := if c then r.consumer % r.count else r.producer % r.count
    let line (c : Bool) : List (Nat × Nat) := if c then r.consumers else r.producers
    let first (c : Bool) : Prop := line c = [] ∨ (line c).head? = some (s.iss.core, s.iss.berth)
    let free (c : Bool) : Prop := r.state (index c) = (if c then .full else .empty) ∧ first c
    let taken (c : Bool) : Ring :=
      if c then { r with states := r.states.set (index c) .draining, consumer := r.consumer + 1 }
      else { r with states := r.states.set (index c) .filling, producer := r.producer + 1 }
    let took (n : Nat) (c : Bool) (d : BitVec 5) : State :=
      (((if c then u.raisePts s.iss.core s.iss.berth pQread (Map.getD r.times (index c) 0) else u).setRing s.clNum n
        (taken c)).leaveRings s.iss.core s.iss.berth).putG d (.ofNat 64 (r.addr (index c)))
    (∀ f : FAcqb, s.ringCheck f.o.toNat = .pass → s.myCluster.ring f.o.toNat = some r →
      (free (f.c == 1) → exec (.acqb f) s = .next (took f.o.toNat (f.c == 1) f.d)) ∧
      (¬ free (f.c == 1) → exec (.acqb f) s = .next (u.stall.joinRing f.o.toNat (f.c == 1)))) ∧
    (∀ f : FAcqbt, s.ringCheck f.o.toNat = .pass → s.myCluster.ring f.o.toNat = some r →
      (free (f.c == 1) → exec (.acqbt f) s = .next ((took f.o.toNat (f.c == 1) f.d).putK f.k true)) ∧
      (¬ free (f.c == 1) → WritesK s (exec (.acqbt f) s) f.k false))

/-! ## Task queues -/

/-- ENQ and SPAWN ask for a place for their packet, the image as it stands at the bundle's start or one unit of a header and three
registers, await the answer, and hold the packet with the place that is granted, or take SPILL_QUOTA where the quota refuses it; ENQT puts its packet at the tail of the hardware queue, or not at all, and
says so. -/
def Sys2Proof.Claims.Enqueues : Prop :=
  ∀ s : State, s.iss.berth < 8 → s.odd = false →
    let u := s.inSlot (some .scalar)
    let n := u.iss.slot
    let asks (cl tq : Nat) (pkt : List Word) : State :=
      (u.stall.onMe fun b => { b with asked := b.asked ++ [⟨n, s.stamp, none, none, pkt⟩] }).send
        (.enq s.iss.core s.iss.berth n cl tq (pkt.length / 4) s.mySlot)
    let granted (a : Asked) (cl tq : Nat) : Berth :=
      { s.me with held := s.me.held ++ [.enq a.id cl tq a.packet], asked := s.me.asked.filter fun x => x.slot != n }
    let refused (cl tq : Nat) : State := u.takeTrap (u.trap 0x10 (cl * 16 + tq))
    (∀ f : FEnq, (∀ v ∈ u.enqCheck f.a f.b, v = .pass) →
      (u.askedHere = none →
        exec (.enq f) s = .next (asks (s.srcG f.b).toNat f.q.toNat (s.image ((s.srcG f.a).toNat % 2 ^ 22)))) ∧
      ∀ a, u.askedHere = some a →
        (a.answer = none → Becomes s (exec (.enq f) s) { s.me with status := .stalled }) ∧
        (a.answer = some 0 → Becomes s (exec (.enq f) s) (granted a (s.srcG f.b).toNat f.q.toNat)) ∧
        ∀ r, a.answer = some (r + 1) → exec (.enq f) s = .next (refused (s.srcG f.b).toNat f.q.toNat)) ∧
    (∀ f : FSpawn, f.b.toNat ≤ 29 → u.clusterCheck (s.srcG f.d).toNat = .pass →
      (u.askedHere = none → exec (.spawn f) s = .next (asks (s.srcG f.d).toNat f.q.toNat
        [.ofNat 64 (setBits (setBits (s.srcG f.a).toNat 0 3 0) 19 3 0), s.srcG f.b, s.srcG (f.b + 1), s.srcG (f.b + 2)])) ∧
      ∀ a, u.askedHere = some a →
        (a.answer = none → Becomes s (exec (.spawn f) s) { s.me with status := .stalled }) ∧
        (a.answer = some 0 → Becomes s (exec (.spawn f) s) (granted a (s.srcG f.d).toNat f.q.toNat)) ∧
        ∀ r, a.answer = some (r + 1) → exec (.spawn f) s = .next (refused (s.srcG f.d).toNat f.q.toNat)) ∧
    (∀ f : FEnqt, (semEnqt f).runs (.enqt f) s = true →
      let cl := (s.srcG f.b).toNat
      let pkt := s.image ((s.srcG f.a).toNat % 2 ^ 22)
      let fits := s.ringOcc cl f.q.toNat = 0 ∧ pkt.length / 4 ≤ s.tqFree cl f.q.toNat
      (fits → exec (.enqt f) s = .next ((u.bump.setTq cl f.q.toNat (s.tq cl f.q.toNat ++
        [{ words := stampPacket s.mySlot pkt, units := pkt.length / 4, num := s.stamp, since := s.cycleOf (16 * cl),
           reserved := none }])).putK f.k true)) ∧
      (¬ fits → WritesK s (exec (.enqt f) s) f.k false))

/-- DEQ and DEQT take the head packet of the launch: it leaves the queue, its bytes go to the scratchpad address in the register and its
header to g[rd]; where there is none DEQ waits and DEQT says so. -/
def Sys2Proof.Claims.Dequeues : Prop :=
  ∀ (s : State) (a : BitVec 5), s.iss.berth < 8 → s.odd = false →
    let u := s.inSlot (some .scalar)
    let x := (s.srcG a).toNat % 2 ^ 22
    x % 32 = 0 → s.bankCheck x 256 = .pass →
    let took (n : Nat) (p : Packet) (d : BitVec 5) : State :=
      ((u.setTq s.clNum n ((s.tq s.clNum n).drop 1)).writeSpad x (32 * p.units) (ofWords p.words)).putG d (p.words.head?.getD 0)
    (∀ f : FDeq, f.a = a →
      (∀ p, s.takeable f.q.toNat = some p → exec (.deq f) s = .next (took f.q.toNat p f.d)) ∧
      (s.takeable f.q.toNat = none → Becomes s (exec (.deq f) s) { s.me with status := .stalled })) ∧
    (∀ f : FDeqt, f.a = a →
      (∀ p, s.takeable f.q.toNat = some p → exec (.deqt f) s = .next ((took f.q.toNat p f.d).putK f.k true)) ∧
      (s.takeable f.q.toNat = none → WritesK s (exec (.deqt f) s) f.k false))

/-- ENQ and SPAWN hold their packet with the place granted, ENQT puts its packet at the tail or says that it did not; DEQ and DEQT take the head packet of the launch. -/
def Obligations.QueueTransfers : Prop :=
  Claims.Enqueues ∧ Claims.Dequeues

/-- The bytes that DGET and DEQ write to scratchpad at once go to their address and nowhere else: every other byte of the cluster's
scratchpad, every byte of memory and of other clusters, and every register reads as before. -/
def Sys2Proof.Claims.ScratchpadWriteFrame : Prop :=
  ∀ (s : State) (addr n v : Nat), s.iss.berth < 8 → s.myCluster.spad.wf = true →
    let t := s.writeSpad addr n v
    t.mem = s.mem ∧ t.me.regs = s.me.regs ∧ (t.myCluster.spad.read addr n = v % 2 ^ (8 * n)) ∧
    (∀ a, a < addr ∨ addr + n ≤ a → t.myCluster.spad.byte a = s.myCluster.spad.byte a) ∧
    (∀ c a, c ≠ s.clNum → (t.cluster c).spad.byte a = (s.cluster c).spad.byte a) ∧
    t.myCluster.spad.wf = true

/-- A byte written is read back, every other byte reads as before, and the canonical form is kept; bytes written to scratchpad at once go to their address and nowhere else. -/
def Obligations.ByteMemory : Prop :=
  Claims.Bytes ∧ Claims.ScratchpadWriteFrame

/-! ## Operand queues, banks and descriptors -/

/-- QCFG installs a configuration, empty, LOCAL or OPEN, and clears the presence bits of its region; QSPL goes on once its splice is
answered; QUSP does nothing to a queue that is not spliced, and otherwise unsplices it and awaits the confirmation. -/
def Obligations.QueueInstructions : Prop :=
  ∀ s : State, s.iss.berth < 8 →
    let u := s.inSlot (some .scalar)
    (∀ f : FQA, (semQcfg f).runs (.qcfg f) s = true →
      let w := s.srcG f.a
      let q : Queue := { Queue.zero with configured := true, cfg := w, splice := if w.getLsbD 44 then .openQ else .localQ }
      exec (.qcfg f) s = .next ((u.onRegs fun x => x.putQ f.q.toNat q).onMyCluster fun k =>
        k.onBlocks (w.toNat % 2 ^ 22) (2 ^ (w.toNat / 2 ^ 40 % 2 ^ 4) * (128 * 2 ^ (w.toNat / 2 ^ 36 % 2 ^ 3)) / 128)
          fun b => { b with present := false })) ∧
    (∀ f : FQA, (semQspl f).runs (.qspl f) s = true →
      Becomes s (exec (.qspl f) s) { s.me with asked := s.me.asked.filter fun x => x.slot != u.iss.slot }) ∧
    (∀ f : FQ, (s.srcQ f.q.toNat).splice ≠ .fed →
      ((s.liveQ f.q.toNat).splice ≠ .spliced → Becomes s (exec (.qusp f) s) s.me) ∧
      ((s.liveQ f.q.toNat).splice = .spliced →
        exec (.qusp f) s = .next ((u.onMe fun b => { b with awaiting := some s.stamp }).unsplice s.iss.core s.iss.berth f.q.toNat)))

/-- BREL hands each bank it names to the launch that has waited longest, BACQ passes once the launch owns every bank it names and waits while
one of them is still to come to it, and BMODE switches the mode of each; a bank that is not the launch's, for BACQ one that it does not wait
for either, takes BANK_OWNER. -/
def Sys2Proof.Claims.Banks : Prop :=
  ∀ s : State, s.iss.berth < 8 → s.odd = false →
    let u := s.inSlot (some .scalar)
    (∀ f : FA, let l := (List.range 32).filter fun n => (s.srcG f.a).getLsbD n
      (∀ n ∈ l, (s.myCluster.bank n).owner = some s.mySlot) →
      (exec (.brel f) s = .next (u.onMyCluster fun k => l.foldl (fun (k : Cluster) n => k.onBank n
        fun b => { b with owner := b.pending.head?, pending := b.pending.drop 1 }) k)) ∧
      Becomes s (exec (.bacq f) s) s.me) ∧
    (∀ (f : FA) (n : Nat), let l := (List.range 32).filter fun n => (s.srcG f.a).getLsbD n
      n ∈ l → (∀ m ∈ l, m < n → (s.myCluster.bank m).owner = some s.mySlot) →
      (s.myCluster.bank n).owner ≠ some s.mySlot →
      let e := (if (s.myCluster.bank n).mode = .scratchpad then 0 else 2 ^ 5) + n
      exec (.brel f) s = .next (u.takeTrap (u.trap 0x19 e))) ∧
    (∀ f : FA,
      let l := (List.range 32).filter fun n => (s.srcG f.a).getLsbD n
      let mine (n : Nat) : Prop := (s.myCluster.bank n).owner = some s.mySlot
      let comes (n : Nat) : Prop := s.mySlot ∈ (s.myCluster.bank n).pending
      (∀ n ∈ l, (∀ m ∈ l, m < n → mine m ∨ comes m) → ¬ mine n → ¬ comes n →
        let e := (if (s.myCluster.bank n).mode = .scratchpad then 0 else 2 ^ 5) + n
        exec (.bacq f) s = .next (u.takeTrap (u.trap 0x19 e))) ∧
      ((∀ n ∈ l, mine n ∨ comes n) → (∃ n ∈ l, ¬ mine n) → Becomes s (exec (.bacq f) s) { s.me with status := .stalled })) ∧
    (∀ f : FQA, f.q ≠ 3 → (semBmode f).runs (.bmode f) s = true →
      exec (.bmode f) s = .next (u.onMyCluster fun k =>
        ((List.range 32).filter fun n => (s.srcG f.a).getLsbD n).foldl (fun (k : Cluster) n => k.switchBank n
          (if f.q = 0 then .scratchpad else if f.q = 1 then .cache else .fifo)) k))

/-- ACQB and ACQBT take the next buffer of a ring; BREL, BACQ and BMODE release, await and switch scratchpad banks, which must be the launch's. -/
def Obligations.RingsAndBanks : Prop :=
  Claims.BufferRings ∧ Claims.Banks

/-- DSET loads a descriptor of the core from scratchpad and DGET stores one there; one whose fields R170 forbids takes DESC_INVALID and
is not loaded. -/
def Sys2Proof.Claims.Descriptors : Prop :=
  ∀ (s : State) (f : FDset), s.iss.berth < 8 → s.predIs f.p 0 = true →
    let u := s.inSlot (some .scalar)
    let a := (s.srcG f.a).toNat % 2 ^ 22
    let d : Desc := .ofNat 512 (s.iss.spad.read a 64)
    a % 64 = 0 → s.bankCheck a 64 = .pass → s.spadQuiet a 64 = true →
    (∀ w b, (s.myCluster.block a).mark = false → d.bad = some (w, b) →
      exec (.dset f) s = .next (u.takeTrap (u.trap 0x13 (w + 8 * b)))) ∧
    ((s.myCluster.block a).mark = false → d.bad = none → u.rangeCheck d = .pass →
      exec (.dset f) s = .next ((u.onMyCore fun k => { k with d := Map.set k.d f.e.toNat d }).touchSpad
        s.iss.core s.iss.berth pQread false a 64)) ∧
    (s.odd = false → exec (.dget f) s = .next (u.writeSpad a 64 (s.desc f.e.toNat).toNat))

/-- CHK, CHKP and CHKQ change nothing where their operands agree (CHKQ reads its entries), and otherwise raise SDC_CHECK, an error of
the rollback class, and the score of the core's sub-unit by 64. -/
def Sys2Proof.Claims.Checks : Prop :=
  ∀ s : State, s.iss.berth < 8 →
    let u := s.inSlot (some .scalar)
    let fails (v : State) (kind info : Nat) : State :=
      (v.raiseError s.iss.core s.iss.berth (u.trap 0x0D info) false).raiseScore kind s.iss.core 64
    (∀ f : FChk, s.predIs f.p f.n = true →
      (s.srcG f.a = s.srcG f.b → Becomes s (exec (.chk f) s) s.me) ∧
      (s.srcG f.a ≠ s.srcG f.b → exec (.chk f) s = .next (fails u 0 0))) ∧
    (∀ f : FChkp, s.predIs f.p f.n = true →
      (s.srcK f.a = s.srcK f.b → Becomes s (exec (.chkp f) s) s.me) ∧
      (s.srcK f.a ≠ s.srcK f.b → exec (.chkp f) s = .next (fails u 0 2))) ∧
    (∀ f : FChkq, (semChkq f).runs (.chkq f) s = true →
      let x := entry7 (f.x.setWidth 7)
      let y := entry7 (f.y.setWidth 7)
      let v := u.readEntries [x, y]
      (v.entriesAgree x y = true → exec (.chkq f) s = .next v) ∧
      (v.entriesAgree x y = false →
        exec (.chkq f) s = .next (fails v (chkqKind (v.myCluster.block (v.entryAddr x)).unit) 1)))

/-- DSET loads a descriptor that R170 allows and DGET stores one; the checks change nothing where their operands agree and raise SDC_CHECK where they do not. -/
def Obligations.DescriptorsAndChecks : Prop :=
  Claims.Descriptors ∧ Claims.Checks

/-! ## Special registers -/

/-- MFSR writes the value of a special register as its bundle issues; of an engine record in SR.EINFO it then clears LOST. -/
def Sys2Proof.Claims.SpecialReads : Prop :=
  ∀ (f : FLidx) (s : State), s.iss.berth < 8 → f.i.toNat ∈ specialIndexes → s.predIs f.p 0 = true →
    (f.i = 0x050 ∨ f.i = 0x051 → s.me.sup = true) → (f.i = 0x006 → s.flagsReady = true) →
    let v := (s.onRegs fun _ => s.iss.start).readSr s.iss.core s.iss.berth f.i.toNat
    ∃ t, exec (.mfsr f) s = .next t ∧ { t with cores := s.cores, iss := s.iss, stamp := s.stamp } = s ∧
      (f.i ≠ 0x012 → t.me = { s.me with regs := s.me.regs.putG f.d.toNat v }) ∧
      (f.i = 0x012 → t.me = { s.me with
        regs := ({ s.me.regs with
          einfo := if s.me.regs.einfo.getLsbD 63 then s.me.regs.einfo &&& 0xBFFFFFFFFFFFFFFF else s.me.regs.einfo }).putG f.d.toNat v
        einfoUnread := false }) ∧ SameBytes s t

/-- The value that each special register reads: SR.STATUS, SR.BERTH of a task, SR.CORE, SR.MODE, SR.PBOUND, SR.CHKSB, SR.FLAGS, SR.ACCQ,
SR.SEGPC, SR.CAUSE, SR.EPC, SR.EINFO, SR.TVEC, SR.CYCLE, SR.CAP, SR.CAPGEN, SR.RINGCFG, SR.NETSEL, SR.NETCNT, SR.LEASE and SR.SUSP. -/
def Sys2Proof.Claims.SpecialValues : Prop :=
  ∀ (s : State) (c b : Nat),
    let x := s.berth c b
    let r := x.regs
    let flag (f : Bool) : Nat := if f then 1 else 0
    s.readSr c b 0x000 = .ofNat 64 (flag x.sup + 2 * flag x.red + 4 * flag x.ltol + 8 * flag x.chkl) ∧
    s.readSr c b 0x003 = r.mode ∧
    s.readSr c b 0x004 = .ofNat 64 (r.bound.toNat + 2 ^ 32 * r.count.toNat) ∧
    s.readSr c b 0x005 = r.chksb ∧
    s.readSr c b 0x006 = .ofNat 64 r.flags.toNat ∧
    s.readSr c b 0x008 = .ofNat 64 (r.entry.toNat + 2 ^ 12 * flag r.retry + 2 ^ 16 * r.rewinds.toNat) ∧
    s.readSr c b 0x010 = r.cause ∧ s.readSr c b 0x011 = r.epc ∧ s.readSr c b 0x012 = r.einfo ∧
    s.readSr c b 0x013 = (s.core c).tvec ∧ s.readSr c b 0x020 = (s.core c).cycle ∧
    s.readSr c b 0x022 = .ofNat 64 s.capgen.toNat ∧ s.readSr c b 0x040 = x.netsel ∧ s.readSr c b 0x030 = x.ringcfg ∧
    (∀ t, x.task = some t → s.readSr c b 0x001 =
      .ofNat 64 (b + 2 ^ 12 * t.slot + 2 ^ 20 * t.effPrio + 2 ^ 22 * t.basePrio + 2 ^ 28 * t.ctxSlot)) ∧
    (c < 1536 → s.readSr c b 0x002 = .ofNat 64 (c + 2 ^ 12 * (c % 16) + 2 ^ 16 * (c / 16) + 2 ^ 24 * dieOf (c / 16) +
      2 ^ 32 * islandOf (c / 16) + 2 ^ 48 * (s.ctrl.pkgnum.toNat % 2 ^ 9))) ∧
    (let held (l : Launch) : Nat := ((List.range 16).filter fun k => s.resState l c b k != 0).length
     s.readSr c b 0x007 = .ofNat 64 (r.quota.toNat + 2 ^ 16 * r.refused.toNat +
        2 ^ 32 * ((s.launch x.slot).map held).getD 0)) ∧
    (let gone (kinds : List Nat) : Nat := (((s.records.filter fun r => kinds.contains r.kind).map Record.index).dedup).length
     s.readSr c b 0x021 = .ofNat 64 (1536 - gone [0, 1, 2] + 2 ^ 24 * (192 - gone [3]) + 2 ^ 32 * (96 - gone [4]) +
        2 ^ 40 * (36 - gone [6]) + 2 ^ 48 * (s.records.filter fun r => r.cause == 4).length)) ∧
    (let quay := x.netsel.toNat / 2 ^ 8 % 2 ^ 8
     let i := x.netsel.toNat % 2 ^ 8
     s.readSr c b 0x041 = .ofNat 64 (if quay < 96 ∧ i ≤ 13 then Map.getD s.counters (256 * quay + i) 0 else 0)) ∧
    (∀ k n, x.lease = some (k, n) → s.readSr c b 0x050 =
      .ofNat 64 (n + 2 ^ 24 * k + 2 ^ 32 * ((s.leaseOf k n).map Lease.state).getD 0)) ∧
    (x.lease = none → s.readSr c b 0x050 = 0) ∧
    s.readSr c b 0x051 = .ofNat 64 (s.susp.2 + 2 ^ 24 * s.susp.1 +
      2 ^ 40 * (if s.susp.2 < unitCount s.susp.1 then s.score s.susp.1 s.susp.2 else 0))

/-- MFSR writes the value of a special register, and the special registers that hold a berth's own fields read them. -/
def Obligations.ReadSpecial : Prop :=
  Claims.SpecialReads ∧ Claims.SpecialValues

/-- MTSR writes the writable fields of a special register, in user mode those that it may write; a field that no map names reads as zero afterwards, and a register that no
write reaches (SR.STATUS, SR.CYCLE, SR.CAP and the like) is unchanged. -/
def Sys2Proof.Claims.SpecialWrites : Prop :=
  ∀ (f : FMtsr) (s : State), s.iss.berth < 8 → f.i.toNat ∈ specialIndexes → s.predIs f.p 0 = true →
    (s.me.sup = false → f.i.toNat ∉ [0x003, 0x004, 0x007, 0x008, 0x010, 0x011, 0x012, 0x013, 0x051]) →
    (f.i = 0x006 → s.flagsReady = true) →
    let v := s.srcG f.a
    let o := exec (.mtsr f) s
    let r := s.me.regs
    (f.i = 0x003 → Becomes s o { s.me with regs := { r with mode := v &&& 0x103 } }) ∧
    (f.i = 0x004 → Becomes s o { s.me with regs := { r with bound := .ofNat 32 v.toNat } }) ∧
    (f.i = 0x005 → Becomes s o { s.me with regs := { r with chksb := v &&& 1 } }) ∧
    (f.i = 0x006 → Becomes s o { s.me with regs := { r with flags := .ofNat 7 v.toNat } }) ∧
    (f.i = 0x007 → Becomes s o
      { s.me with regs := { r with quota := if v.toNat % 2 ^ 16 = 0 then 8 else .ofNat 16 v.toNat } }) ∧
    (f.i = 0x008 → Becomes s o { s.me with regs := { r with retry := v.getLsbD 12, entry := .ofNat 11 v.toNat } }) ∧
    (f.i = 0x010 → Becomes s o { s.me with regs := { r with cause := v &&& 0x0FFF3FFF } }) ∧
    (f.i = 0x011 → Becomes s o { s.me with regs := { r with epc := v &&& 0x7FF } }) ∧
    (f.i = 0x012 → Becomes s o { s.me with
      regs := { r with einfo := if v.getLsbD 63 then v &&& 0xC0FFF8FFFFFFFFFF else v }, einfoUnread := false }) ∧
    (f.i = 0x040 → Becomes s o { s.me with netsel := v &&& 0xFFFF }) ∧
    (f.i.toNat ∈ [0x000, 0x001, 0x002, 0x020, 0x021, 0x022, 0x041, 0x050] → Becomes s o s.me) ∧
    (f.i = 0x013 → s.odd = false → ∃ t, o = .next t ∧
      t.core s.iss.core = { s.myCore with tvec := v &&& 0x7FF } ∧ SameBytes s t) ∧
    (f.i = 0x051 → ∃ t, o = .next t ∧ t.susp = (v.toNat / 2 ^ 24 % 2 ^ 8, v.toNat % 2 ^ 24) ∧ t.me = s.me ∧ SameBytes s t) ∧
    (f.i = 0x030 → s.odd = false → s.ringcfgCheck v = .pass →
      o = .next ((s.inSlot (some .scalar)).writeRing v))

/-- A write of SR.RINGCFG by either of its rows enables the ring with every buffer EMPTY and both counters 0, or disables it. -/
def Sys2Proof.Claims.RingConfiguration : Prop :=
  ∀ (s : State) (w : Word), s.iss.berth < 8 → s.ringcfgCheck w = .pass →
    (ringEnable w = true → ∃ t, exec (.ringcfgEnable w) s = .next t ∧
      t.myCluster.ring (ringNo w) = some ⟨w, some s.mySlot, List.replicate (ringCount w) .empty, 0, 0, [], [], []⟩ ∧ t.me = { s.me with ringcfg := w } ∧ SameBytes s t) ∧
    (ringEnable w = false → ∃ t, exec (.ringcfgDisable w) s = .next t ∧
      t.myCluster.ring (ringNo w) = none ∧ t.me = { s.me with ringcfg := w } ∧ SameBytes s t)

/-- MTSR writes the writable fields of a special register; a write of SR.RINGCFG enables or disables a ring. -/
def Obligations.WriteSpecial : Prop :=
  Claims.SpecialWrites ∧ Claims.RingConfiguration

/-- LEASE.REQ and LEASE.END in supervisor mode write their status to g[rd]; a request that is granted starts a lease of the unit, an end
that is granted returns it. -/
def Sys2Proof.Claims.LeaseStatus : Prop :=
  ∀ (f : SR2) (s : State), s.iss.berth < 8 → s.odd = false → s.me.sup = true → s.predIs f.p f.n = true →
    let u := s.inSlot (some .scalar)
    let k := (s.srcG f.a).toNat / 2 ^ 24 % 2 ^ 8
    let i := (s.srcG f.a).toNat % 2 ^ 24
    (s.leaseReq k i = 0 → exec (.leaseReq f) s =
      .next (((u.startLease k i).nameLease k i).putG f.d 0)) ∧
    (s.leaseReq k i ≠ 0 → WritesG s (exec (.leaseReq f) s) f.d (.ofNat 64 (s.leaseReq k i))) ∧
    (∀ l, s.leaseEnd k i = 0 → s.leaseOf k i = some l → exec (.leaseEnd f) s = .next ((u.returnUnit l 5 0).putG f.d 0)) ∧
    (s.leaseEnd k i ≠ 0 → WritesG s (exec (.leaseEnd f) s) f.d (.ofNat 64 (s.leaseEnd k i)))

/-! ## Launches -/

/-- A write of LAUNCH enters the FIFO, and its admission is due; one that finds 16 writes there is refused with LAUNCH_REFUSED; while an event
of the launch unit waits, so does the write. The head of the FIFO is admitted in the lowest free slot, or rejected with its code. -/
def Sys2Proof.Claims.LaunchAdmission : Prop :=
  (∀ (s : State) (addr : Word),
    (s.waits [1, 2, 3] = true → exec (.launchWrite addr) s = .next { s with stalledRows := s.stalledRows ++ [.launchWrite addr] }) ∧
    (s.waits [1, 2, 3] = false → s.fifo.length < 16 → exec (.launchWrite addr) s =
      .next { s with fifo := s.fifo ++ [addr], agenda := s.agenda ++ [.launchAdmission] }) ∧
    (s.waits [1, 2, 3] = false → 16 ≤ s.fifo.length → exec (.launchWrite addr) s =
      .next { s with raised := s.raised ++ [⟨0x02, 0xFF, 0x80, 0xFFFF, addr.toNat, 0, none⟩],
                     agenda := s.agenda ++ [.eventAccept] })) ∧
  (∀ (s : State) (a : Word) (slot : Nat), s.waits [1, 2, 3] = false → s.fifo = [a] →
    slot < 16 → s.launch slot = none → (∀ n, n < slot → s.launch n ≠ none) → s.tablesQuiet a.toNat = true →
    let u := (({ s with fifo := [] } : State).chargeTables a.toNat).recordReads a.toNat
    (∀ l, u.readLaunch a.toNat = .ok l → exec .launchAdmission s = .next (u.enterLaunch slot l)) ∧
    (∀ code, u.readLaunch a.toNat = .error code →
      exec .launchAdmission s = .next (u.postDevice 0x03 0xFF a.toNat code)))

/-- A range of a program is copied to instruction memory once no bundle of it belongs to another launch and its page does not migrate,
and the core's start vectors are then offered; until then the load waits. -/
def Sys2Proof.Claims.ProgramLoads : Prop :=
  ∀ (s : State) (slot entry c : Nat) (l : Launch) (p : Program), s.launch slot = some l → l.programs[entry]? = some p →
    (entry, c) ∈ l.toLoad →
    ((s.core c).rangeHeld slot p.firstBundle p.bundles = false → s.migratingIn p.va (32 * p.bundles) = false →
      exec (.programLoad slot entry c) s =
      .next (((((s.chargeRange p.va (32 * p.bundles)).loadBundles slot c p).carryProgram c p).setLaunch slot { l with toLoad := l.toLoad.filter fun x => x != (entry, c) }).offerVectors
        slot c)) ∧
    ((s.core c).rangeHeld slot p.firstBundle p.bundles = true ∨ s.migratingIn p.va (32 * p.bundles) = true →
      exec (.programLoad slot entry c) s = .next s)

/-- A walker passes to the next record once all iterations of the present one are placed, and offers its next iteration to a core that
can seat it; with no record left its launch may be complete. -/
def Sys2Proof.Claims.Walkers : Prop :=
  ∀ (s : State) (slot : Nat) (l : Launch), s.launch slot = some l →
    (l.nests[l.record]? = none → exec (.walkerOffer slot) s = .next (s.later (.launchComplete slot))) ∧
    (∀ x, l.nests[l.record]? = some x → x.total ≤ l.iteration → exec (.walkerOffer slot) s =
      .next ((s.setLaunch slot { l with record := l.record + 1, iteration := 0, cursor := 0 }).later (.walkerOffer slot))) ∧
    (∀ x c, l.nests[l.record]? = some x → l.iteration < x.total → l.preempted = false → l.terminated = false →
      s.walkerBusy slot = false → (s.nestCores l x).find? (fun d => decide (l.cursor ≤ d) && (s.seat l d).isSome) = some c →
      ∃ t w, exec (.walkerOffer slot) s = .next t ∧ t.agenda = s.agenda ++ [.taskPlace c] ∧
        (t.core c).waiting = (s.core c).waiting ++ [w] ∧ w.task.source = .iteration l.record l.iteration ∧
        w.task.entry = x.entry ∧ w.task.origins = x.origins l.iteration ∧
        (t.launch slot).map Launch.cursor = some (c + if l.redundant then 2 else 1))

/-- A dispatcher offers the TASK packet at the head of a queue to the cores of its cluster, and removes and counts a malformed head; a
packet at the head of a spill ring moves to the hardware queue once its entries are free. -/
def Sys2Proof.Claims.Dispatchers : Prop :=
  ∀ (s : State) (cl tq : Nat),
    (∀ p rest, s.tq cl tq = p :: rest → p.reserved = none → p.malformed = false → p.isTask = true →
      exec (.dispatcherOffer cl tq) s =
        .next { s with agenda := s.agenda ++ (List.range 16).map fun i => .taskPlace (16 * cl + i) }) ∧
    (∀ p rest, s.tq cl tq = p :: rest → p.reserved = none → p.malformed = true → exec (.dispatcherOffer cl tq) s =
      .next (((s.postQuay cl 0x06 (headerSlot p.header) p.header.toNat (tq + cl * 2 ^ 8)).setTq cl tq rest).countTask
        (headerSlot p.header) true)) ∧
    (s.ringOcc cl tq ≠ 0 → s.ringReserved cl tq (s.ringRd cl tq) = none →
      (s.ringPacket cl tq (s.ringRd cl tq)).1 ≤ s.tqFree cl tq →
      let p := s.ringPacket cl tq (s.ringRd cl tq)
      let u := (List.range p.1).foldl (fun (t : State) i => t.ringTrips cl false (s.ringUnit cl tq (s.ringRd cl tq + i)) 32) s
      exec (.spillRefill cl tq) s = .next ((u.bump.putRing cl tq 0x14 ((s.ringRd cl tq + p.1) % 2 ^ 32)).setTq cl tq
        (s.tq cl tq ++ [⟨p.2, p.1, u.stamp, s.cycleOf (16 * cl), none⟩])))

/-- A program is copied to instruction memory, a walker offers its iterations in turn, and a dispatcher offers the packet at the head of its queue. -/
def Obligations.Placement : Prop :=
  Claims.ProgramLoads ∧ Claims.Walkers ∧ Claims.Dispatchers

/-- A launch whose tasks have all retired is complete: its packets, banks, rings, instruction memory and barriers are released, its slot is
free, and LAUNCH_DONE carries the number of its failed tasks. One with a task left goes on. -/
def Sys2Proof.Claims.LaunchCompletion : Prop :=
  ∀ (s : State) (slot : Nat) (l : Launch), s.launch slot = some l →
    (s.launchDone slot l = true → s.waits [1, 2, 3] = false →
      ∃ t, exec (.launchComplete slot) s = .next t ∧ t.launches = Map.erase (s.purge slot).launches slot ∧
        (⟨0x01, slot, 0x80, 0xFFFF, l.addr, l.failures + (if l.terminated then 2 ^ 32 else 0), none⟩ : Event) ∈ t.raised ∧
        t.clusters = (s.purge slot).clusters.map (fun e => (e.1, e.2.dropLaunch slot)) ∧
        t.cores = (s.purge slot).cores.map (fun e => (e.1, e.2.dropLaunch slot))) ∧
    (s.launchDone slot l = false → exec (.launchComplete slot) s = .next s)

/-- LCTRL pre-empts, resumes and terminates a launch: none of its tasks is placed while it is pre-empted, a resumed one's walker goes on, and
a terminated one starts no more, each of its berths stops, its waiting tasks and packets are dropped, and it is to complete. -/
def Sys2Proof.Claims.LaunchControl : Prop :=
  ∀ (s : State) (slot : Nat) (l : Launch), s.launch slot = some l →
    (exec (.lctrlPreempt slot) s = .next { s with launches := Map.set s.launches slot { l with preempted := true } }) ∧
    (exec (.lctrlResume slot) s = .next { s with
      launches := Map.set s.launches slot { l with preempted := false }, agenda := s.agenda ++ [.walkerOffer slot] }) ∧
    (let u := { s with
        launches := Map.set s.launches slot { l with terminated := true, toOffer := [], toLoad := [], ctxUsed := [] }
        toNotify := s.toNotify.filter fun x => x.1.slot != slot }
      let stopped := u.cores.foldl (fun (t : State) e => (List.range 8).foldl (fun (t : State) b =>
        if (t.berth e.1 b).slot = slot then t.stopBerth e.1 b else t) (t.dropWaiting slot e.1)) u
      exec (.lctrlTerminate slot) s = .next ((stopped.purge slot).later (.launchComplete slot)))

/-- LAUNCH enters the FIFO and its head is admitted or rejected; a launch whose tasks have retired completes and releases what it holds; LCTRL pre-empts, resumes and terminates one. -/
def Obligations.Launches : Prop :=
  Claims.LaunchAdmission ∧ Claims.LaunchCompletion ∧ Claims.LaunchControl

/-! ## Tasks -/

/-- A task placed starts in the state of R37: its entry as PC, an empty loop stack, its arguments in g1 upwards and the origins of an iteration
in g24 to g29 (R38), every other register zero, no handle loaded, no queue configured, no flag, and the fields of its launch: SR.MODE,
SR.PBOUND.BOUND, SR.CHKSB, SR.ACCQ with 8 for a quota of 0, and the bits of SR.STATUS. -/
def Obligations.TaskStart : Prop :=
  ∀ (s : State) (l : Launch) (c b : Nat) (t : Task), b < 8 →
    let x := (s.startTask l c b t).berth c b
    let r := x.regs
    x.status = .ready ∧ x.sup = false ∧ x.red = l.redundant ∧ x.ltol = l.leasetol ∧ x.chkl = l.checked ∧ x.entryNext = true ∧ x.task = some { t with effPrio := t.basePrio } ∧
    r.pc = .ofNat 11 t.entry ∧ r.loops = [] ∧
    (∀ i, i < 32 → vget r.g i 0 = if 24 ≤ i ∧ t.origins ≠ [] then t.origins.getD (i - 24) 0
      else if i = 0 then 0 else t.args.getD (i - 1) 0) ∧
    (∀ i, i < 16 → (vget r.h i Handle.zero).loaded = false ∧ (vget r.h i Handle.zero).valid = false) ∧ (∀ i, 0 < i → i < 8 → vget r.k i true = false) ∧
    (∀ i, i < 4 → (r.queue i).configured = false ∧ (r.queue i).head = 0 ∧ (r.queue i).tail = 0) ∧
    r.flags = 0 ∧ r.bound = l.pbound ∧ r.count = 0 ∧ r.cause = 0 ∧ r.epc = 0 ∧ r.einfo = 0 ∧ r.rewinds = 0 ∧
    r.retry = false ∧ r.chksb = (if l.checked then 1 else 0) ∧ r.mode = (if l.checked then 0x101 else 0) ∧
    r.quota = (if l.accq = 0 then 8 else l.accq) ∧ r.refused = 0

/-- A core places its best candidate while it has one, at most one for each berth; a task of no pair that waits on its list and is not an
evicted one is taken from the list and started. -/
def Sys2Proof.Claims.TaskPlacement : Prop :=
  ∀ (s : State) (c : Nat),
    (s.choices c = [] → exec (.taskPlace c) s = .next s) ∧
    (∀ x, bestChoice (s.choices c) = some x → exec (.taskPlace c) s = .next ((s.placeChoice c x).taskPlace c 7)) ∧
    (∀ (x : Choice) (w : Candidate) (l : Launch) (b : Nat), x.waiting = some w → w.evicted = false →
      s.launch x.task.slot = some l → l.redundant = false → s.seat l c = some (b, b) →
      s.placeChoice c x = ((s.unwait c w).startTask l c b x.task).nextIteration x.task)

/-- Aging: a task that waits gains one level of effective priority for every 1,024 cycles it waits, up to 3 (a packet with NOAGE before its
first placement gains none), and nothing else of the core changes. -/
def Sys2Proof.Claims.TaskAging : Prop :=
  ∀ (s : State) (c : Nat), ∃ t, exec (.taskAge c) s = .next t ∧ { t with cores := s.cores } = s ∧
    (∀ d, d ≠ c → t.core d = s.core d) ∧
    t.core c = { s.core c with waiting := (s.core c).waiting.map fun (x : Candidate) =>
      if x.task.ages || x.evicted then
        { x with task := { x.task with effPrio := min 3 (x.task.basePrio + (s.cycleOf c - x.since) / 1024) } }
      else x }

/-- A draining task of no pair, with everything it issued complete, retires: its successors are notified, one after the other, after the
task's fence and as their records may be updated, none of a failed task without FAILSUCC or of a launch that is being terminated; then its
berth is free and the core may place another, and the launch counts it, unless an event of its completion engine waits. One that is not
draining stays. -/
def Sys2Proof.Claims.Retirement : Prop :=
  ∀ (s : State) (c b : Nat) (t : Task), (s.berth c b).task = some t → t.partner = none →
    ((s.berth c b).status = .draining → s.allDone c b = true →
      (s.raised.all fun e => !(e.code == 0xE && e.core == c && e.berth == b)) = true →
      let failed := (s.berth c b).failed
      let tells : Prop := ∃ l, s.launch t.slot = some l ∧ l.terminated = false ∧ (failed = true → t.failSucc = true)
      (tells ∧ t.succs ≠ [] → ∀ h rest, t.succs = h :: rest →
        (s.recordReady c h = false → exec (.taskRetire c b) s = .next s) ∧
        (s.recordReady c h = true → exec (.taskRetire c b) s = .next (((s.notifyNext c b t h).onBerth c b fun x =>
          { x with task := x.task.map fun u => { u with succs := rest } }).later (.taskRetire c b)))) ∧
      (¬ tells ∨ t.succs = [] →
        (s.engineWaits c = true → exec (.taskRetire c b) s = .next s) ∧
        (s.engineWaits c = false → exec (.taskRetire c b) s =
          .next (((s.freeBerth c b).countTask t.slot failed).coreIdle c)))) ∧
    ((s.berth c b).status ≠ .draining → exec (.taskRetire c b) s = .next s)

/-- An eviction that is due begins: issue stops, and the berth is to write its context record. Once everything of it is written, the record
goes to the lowest free context slot of the core, the task waits there and the berth is free. A time slice that has expired is recorded. -/
def Sys2Proof.Claims.Eviction : Prop :=
  ∀ (s : State) (c b : Nat),
    ((s.berth c b).partner = none → s.evictDue c b = true → exec (.evictionTake c b) s = .next (s.beginEvict c b)) ∧
    (s.evictDue c b = false → exec (.evictionTake c b) s = .next s) ∧
    (∀ t l n, (s.berth c b).task = some t → s.launch t.slot = some l → (s.berth c b).status = .evicting →
      s.resultsDone c b = true → (s.berth c b).ckpt = none → (s.berth c b).held = [] →
      (∀ w ∈ s.walks, ¬ (w.core = c ∧ w.berth = b)) → (∀ e ∈ s.accesses, ¬ (e.2.core = c ∧ e.2.berth = b)) →
      l.freeCtx c = some n → s.migratingIn (l.ctxAddr c 0) 16384 = false → exec (.evictionComplete c b) s = .next (s.storeTask c b l t n)) ∧
    (2 ∈ s.evictCauses c b → exec (.timeSliceExpiry c b) s = .next (s.onBerth c b fun x => { x with evictCause := 2 }))

/-- A core places its best candidate, waiting tasks age, a drained task retires, and an eviction that is due writes the context record. A pair and the order of free choices are the model's (log 1). -/
def Obligations.TaskLife : Prop :=
  Claims.TaskPlacement ∧ Claims.TaskAging ∧ Claims.Retirement ∧ Claims.Eviction

/-! ## Messages and accesses -/

/-- A reservation of ENQ or SPAWN is granted a place in its queue, or refused under the quota, which the operation that asked takes as
SPILL_QUOTA (Enqueues); the answer, with the request's mark, goes to it. -/
def Sys2Proof.Claims.Reservations : Prop :=
  ∀ (s : State) (id c b slot cl tq units launch : Nat),
    Map.get? s.messages id = some (.enq c b slot cl tq units launch) → s.asks c b slot id = true →
    let u := (s.received id).carryReply (s.marked.contains id) cl (clusterOf c)
    (∀ v, u.reservePlace cl tq units launch = some v → exec (.enqReservationArrive id) s =
      .next (v.answer c b slot fun a => { a with id := s.stamp, answer := some 0 })) ∧
    (u.reservePlace cl tq units launch = none → exec (.enqReservationArrive id) s =
      .next (u.answer c b slot fun a => { a with answer := some 1 }))

/-- A splice: the consumer becomes FED where nothing forbids it and replies with its configuration and counters; the producer becomes
SPLICED with them, or LOCAL again; one whose bundle has given its request up leaves the consumer OPEN (the model's choice, log 9). A
reservation notice advances the consumer's tail and clears the slot's presence, in a bank that the launch still owns; a head counter reaches the producer; an unsplice returns both ends once nothing is on its way. -/
def Sys2Proof.Claims.SpliceMessages : Prop :=
  ∀ (s : State) (id : Nat),
    let u := s.received id
    (∀ c b slot q target, Map.get? s.messages id = some (.qspl c b slot q target) → s.asks c b slot id = true →
      u.spliceReason c b q target = 0 →
      let dc := spliceCore target
      let db := spliceBerth target
      let k := (s.berth dc db).regs.queue (spliceQueue target)
      exec (.qsplRequestArrive id) s = .next (((u.onQueue dc db (spliceQueue target) fun x =>
        { x with splice := .fed, peerCore := c, peerBerth := b, peerQueue := q }).send
          (.qsplReply c b slot q 0 target k.cfg k.tail k.head id)).setMark s.stamp (s.marked.contains id))) ∧
    (∀ c b slot q target, Map.get? s.messages id = some (.qspl c b slot q target) →
      s.asks c b slot id = false ∨ u.spliceReason c b q target ≠ 0 →
      let k := (s.berth (spliceCore target) (spliceBerth target)).regs.queue (spliceQueue target)
      exec (.qsplRequestArrive id) s = .next ((u.send (.qsplReply c b slot q
        (if s.asks c b slot id then u.spliceReason c b q target else 4) target k.cfg k.tail k.head id)).setMark s.stamp
          (s.marked.contains id))) ∧
    (∀ c b slot q target cfg tail head req, Map.get? s.messages id = some (.qsplReply c b slot q 0 target cfg tail head req) →
      s.asks c b slot req = false →
      let at_ (t : State) : Queue := (t.berth (spliceCore target) (spliceBerth target)).regs.queue (spliceQueue target)
      let mine := (at_ s).splice = .fed ∧ (at_ s).peerCore = c ∧ (at_ s).peerBerth = b ∧ (at_ s).peerQueue = q
      ∃ t, exec (.qsplReplyArrive id) s = .next t ∧ at_ t = if mine then { at_ s with splice := .openQ } else at_ s) ∧
    (∀ c b slot q r target cfg tail head req, Map.get? s.messages id = some (.qsplReply c b slot q r target cfg tail head req) →
      s.asks c b slot req = true →
      let v := (if s.marked.contains id then s.count (clusterOf c) 6 else s).received id
      exec (.qsplReplyArrive id) s = .next ((v.answer c b slot fun a => { a with answer := some r }).onQueue c b q fun x =>
        if r = 0 then
          { x with splice := .spliced, peerCore := spliceCore target, peerBerth := spliceBerth target,
                   peerQueue := spliceQueue target, peerCfg := cfg, remoteTail := tail, mirrored := head }
        else { x with splice := .localQ })) ∧
    (∀ c b q, Map.get? s.messages id = some (.notice c b q) → s.shadow c b = false →
      let k := (s.berth c b).regs.queue q
      let v := u.onBlock (clusterOf c) (k.slotAddr k.tail) fun x => { x with present := false }
      exec (.reservationNoticeArrive id) s = .next ((if s.ownsRange c b (k.slotAddr k.tail) k.esize then v else u).onQueue c b q
        fun x => { x with tail := x.tail + 1 })) ∧
    (∀ c b q h, Map.get? s.messages id = some (.head c b q h) → exec (.mirroredHeadArrive id) s =
      .next (u.onQueue c b q fun x => if x.splice = .spliced ∨ x.splice = .unsplicing then
        { x with mirrored := if (h - x.mirrored).toNat < 2 ^ 15 then h else x.mirrored } else x)) ∧
    (∀ c b q pc pb pq, Map.get? s.messages id = some (.unsplice c b q pc pb pq) →
      (s.messages.any fun e => e.2.feeds c b q) = false → (s.berth pc pb).holdsEntry pq = false → exec (.unspliceArrive id) s =
      .next (((u.onQueue c b q fun x => { x with splice := .openQ }).onQueue pc pb pq fun x =>
        { x with splice := .localQ }).onBerth pc pb fun x =>
          if x.awaiting = some id then { x with awaiting := none }.settle else x))

/-- The data of a spliced entry are written at the consumer's slot and become present, with their sideband; the message is gone. In a bank
that the consumer's launch has released meanwhile nothing is written, the model's choice (log 95). -/
def Sys2Proof.Claims.SplicedData : Prop :=
  ∀ (s : State) (id c b q n bytes sideband unit : Nat),
    Map.get? s.messages id = some (.data c b q n bytes sideband unit) → s.shadow c b = false →
    let cl := clusterOf c
    let u := s.received id
    let k := (s.berth c b).regs.queue q
    let a := k.slotAddr (.ofNat 16 n)
    let v := u.onSpad cl fun m => m.write a k.esize bytes
    let v := v.setCluster cl ((v.cluster cl).onBlocks a (k.esize / 128) fun x => { x with mark := false })
    let v := v.onBlock cl a fun x => { x with sideband := sideband, unit := unit, present := true }
    let w := v.stampSpad cl true (v.ptsOf k.peerCore k.peerBerth pQwrite) a k.esize
    (s.ownsRange c b a k.esize = true → exec (.splicedDataArrive id) s =
      .next ((w.1.raisePts k.peerCore k.peerBerth pQwrite w.2).captureAll cl)) ∧
    (s.ownsRange c b a k.esize = false → exec (.splicedDataArrive id) s = .next u)

/-- A reservation is granted or refused; a splice, its notices, its data and its end reach the other member of the splice. What becomes of a request that its bundle has given up (log 9) and of data for a released bank (log 95) is the model's choice. -/
def Obligations.Splices : Prop :=
  Claims.Reservations ∧ Claims.SpliceMessages ∧ Claims.SplicedData

/-- A walk that ends loads its handle, whose VALID a revocation meanwhile has cleared or not, unless its page migrates; a ticket is the next of
its sequencer. An access whose turn it is waits while its line's home moves, behind earlier requests or for its window, and is lost where
no port reaches its package; its reply writes its register where the berth awaits it. -/
def Sys2Proof.Claims.AccessProgress : Prop :=
  ∀ (s : State),
    (∀ c b h w, s.walks.find? (fun w => w.core == c && w.berth == b && w.handle == h) = some w →
      (¬ ((s.walk w.va).hasLeaf = true ∧ (s.walk w.va).mig = true) →
        exec (.xlatWalkComplete c b h) s = .next ((({ s with walks := s.walks.erase w } : State).chargeWalk (s.translate w.va)).onBerth c b
          fun x => { x with regs := x.regs.putH h { s.loadHandle w.va with valid := (vget x.regs.h h Handle.zero).valid } })) ∧
      ((s.walk w.va).hasLeaf = true → (s.walk w.va).mig = true → exec (.xlatWalkComplete c b h) s = .next s)) ∧
    (∀ id a, Map.get? s.accesses id = some a → a.sc = true → a.ticket = none →
      let u := s.ioTrip (coreSource a.core) pkRequest pkAnswer
      let numbered (n : Nat) (next : Nat × Nat) : State := { u with
        tickets := next
        accesses := Map.set s.accesses id { a with ticket := some n, resends := 0 }
        agenda := u.agenda ++ [.accessPerform id] }
      (a.scope ≤ 5 → exec (.ticketRequestArrive id) s = .next (numbered s.tickets.1 (s.tickets.1 + 1, s.tickets.2))) ∧
      (5 < a.scope → exec (.ticketRequestArrive id) s = .next (numbered s.tickets.2 (s.tickets.1, s.tickets.2 + 1)))) ∧
    (∀ id a, Map.get? s.accesses id = some a → a.done = false → (a.sc = true → a.ticket ≠ none) → s.accessTurn id a = true →
      (a.kind == 0 && (s.l1Read a).isSome) = false →
      (s.unreachable a.pa = true → exec (.accessPerform id) s = .next (s.loseAccess id a)) ∧
      (s.unreachable a.pa = false → (s.moving a.pa = true ∧ a.remote = false) ∨ s.accessBehind a = true →
        exec (.accessPerform id) s = .next s) ∧
      (s.unreachable a.pa = false → s.moving a.pa = false → s.accessBehind a = false → s.accessShut a = true →
        exec (.accessPerform id) s = .next (s.windowWait (coreSource a.core) (s.homeSlice a.pa) (.accessPerform id)))) ∧
    (∀ id a m, Map.get? s.accesses id = some a → a.done = true → a.berth < 8 →
      ((s.berth a.core a.berth).outstanding.any fun p => p.req == id) = true →
      let v := ({ s with accesses := Map.erase s.accesses id, sentAt := Map.erase s.sentAt id } : State).accessAnswered a m
      let w := (v.onBerth a.core a.berth fun x => { x with
        regs := x.regs.putG a.dest (extendBytes a.signed a.size a.value)
        outstanding := x.outstanding.filter fun p => p.req != id }).mergeFlags a.core a.berth a.flags
      (a.marked = false → exec (.accessReply id m) s = .next w) ∧
      (a.marked = true → exec (.accessReply id m) s = .next (w.raiseError a.core a.berth
        ⟨0x0C, a.slot, 0, a.pa / 4096 % 16 * 16 + a.handle⟩ false)))

/-- What an access does where it is performed, a read that L1 serves at once and any other as its request is sent: LD answers with the bytes
of memory at its physical address, or those of the copy, and writes none; ST writes its bytes there and nowhere else; ATOM writes the
result of its function there and nowhere else and answers with the bytes that stood there; its form on the overflow bit of an a64 line
answers with the bit and clears it where its data say so. A read of a poisoned granule is marked. The reply is due. -/
def Sys2Proof.Claims.AccessMemory : Prop :=
  ∀ (s : State) (id : Nat) (a : Access), Map.get? s.accesses id = some a → a.done = false → (a.sc = true → a.ticket ≠ none) →
    s.accessTurn id a = true →
    let replies (p : State → Access → Prop) : Prop := ∃ t x, exec (.accessPerform id) s = .next t ∧ Map.get? t.accesses id = some x ∧
      x.done = true ∧ .accessReply id x.mark ∈ t.agenda ∧ x.core = a.core ∧ x.berth = a.berth ∧ x.dest = a.dest ∧
      x.marked = (a.kind != 1 && s.marksData a.pa) ∧ p t x
    (∀ v ts, a.kind = 0 → s.l1Read a = some (v, ts) → replies fun t x => x.value = v ∧ t.mem = s.mem ∧ t.ovf = s.ovf) ∧
    ((a.kind == 0 && (s.l1Read a).isSome) = false → s.unreachable a.pa = false → s.moving a.pa = false → s.accessBehind a = false →
      s.accessShut a = false →
      let old := s.mem.read a.pa a.size
      (a.kind = 0 → replies fun t x => x.value = old ∧ t.mem = s.mem ∧ t.ovf = s.ovf) ∧
      (a.kind = 1 → s.mem.wf = true → replies fun t _ => t.mem.read a.pa a.size = a.data % 2 ^ (8 * a.size) ∧
        ∀ b, b < a.pa ∨ a.pa + a.size ≤ b → t.mem.byte b = s.mem.byte b) ∧
      (a.kind = 2 → a.fn ≠ 11 → s.mem.wf = true → replies fun t x =>
        x.value = old ∧ x.flags = (atomResult a.fn a.size old a.data a.cmp).2 ∧
        t.mem.read a.pa a.size = (atomResult a.fn a.size old a.data a.cmp).1 % 2 ^ (8 * a.size) ∧
        ∀ b, b < a.pa ∨ a.pa + a.size ≤ b → t.mem.byte b = s.mem.byte b) ∧
      (a.kind = 2 → a.fn = 11 → replies fun t x => x.value = (if s.ovfBit (a.pa / 256) then 1 else 0) ∧ t.mem = s.mem ∧
        (t.ovfBit (a.pa / 256) = (if a.data % 2 = 1 then false else s.ovfBit (a.pa / 256))) ∧
        ∀ n, n ≠ a.pa / 256 → t.ovfBit n = s.ovfBit n))

/-- The new value of each function of ATOM, from the old one and its operands: add, and, or, xor, the signed and unsigned minima and maxima,
exchange and compare-and-exchange wrap and raise no flag; the f32 sum is rounded to nearest even, as R324 and R325 give them. -/
def Sys2Proof.Claims.AtomFunctions : Prop :=
  (∀ (n old b cmp : Nat), (n = 4 ∨ n = 8) → old < 2 ^ (8 * n) → b < 2 ^ (8 * n) →
    let w := 8 * n
    let sx (x : Nat) : Int := (x : Int).bmod (2 ^ w)
    (atomResult 0 n old b cmp).1 = (old + b) % 2 ^ w ∧ (atomResult 1 n old b cmp).1 = old &&& b ∧
    (atomResult 2 n old b cmp).1 = old ||| b ∧ (atomResult 3 n old b cmp).1 = old ^^^ b ∧
    sx (atomResult 4 n old b cmp).1 = min (sx old) (sx b) ∧ sx (atomResult 5 n old b cmp).1 = max (sx old) (sx b) ∧
    (atomResult 6 n old b cmp).1 = min old b ∧ (atomResult 7 n old b cmp).1 = max old b ∧
    (atomResult 8 n old b cmp).1 = b ∧ (atomResult 9 n old b cmp).1 = (if old = cmp then b else old) ∧
    ∀ f, f < 10 → (atomResult f n old b cmp).2 = 0) ∧
  ∀ old b cmp : Nat, atomResult 10 4 old b cmp = f32.add .rn (f32.value old) (f32.value b)

/-- A walk loads its handle, a ticket orders a sequentially consistent access, an access is performed in its turn (LD reads the bytes at its physical address, ST writes them there, ATOM stores the result of its function there and returns the old bytes) and its reply writes its register. -/
def Obligations.Accesses : Prop :=
  Claims.AccessProgress ∧ Claims.AccessMemory ∧ Claims.AtomFunctions

/-- A migration sets MIG in the leaf and flushes the page's lines once no engine is within a granule of it; its switch-over copies
the page and what was on its way to it (that the copy is made then is the model's reading, log 53), renames and revokes it, applies the
parked writes in order and clears MIG; a refused write is parked while there is room, and performed once no migration holds its page, the
model's choice (log 54). -/
def Obligations.Migration : Prop :=
  ∀ (s : State) (va : Word),
    let w := s.walk va.toNat
    let f := w.page.1
    let n := w.page.2
    (∀ frame : Word, w.fault = 0 → w.mig = false →
      let first := va.toNat / n * n
      let others := s.migrations.filter fun m => m.va != first
      (s.pageQuiet va.toNat = true → exec (.migrationStart va frame) s =
        .next (let u := s.flushLines (f * 2 ^ 16) n
          { u with
            mem := u.mem.write w.leafAt 8 (setBits w.leaf 9 1 1)
            migrations := others ++ [⟨first, frame.toNat % 2 ^ 36, true, []⟩] })) ∧
      (s.pageQuiet va.toNat = false → exec (.migrationStart va frame) s =
        .next { s with migrations := others ++ [⟨first, frame.toNat % 2 ^ 36, false, []⟩] })) ∧
    (∀ m, s.migrations.find? (fun m => m.va == va.toNat / n * n) = some m → w.hasLeaf = true → w.mig = true →
      s.rangeQuiet va.toNat (f * 2 ^ 16) n = true → m.parked = [] → s.walks = [] → s.launches = [] → s.fifo = [] →
      let u := (s.copyPage (f * 2 ^ 16) (m.frame * 2 ^ 16) n).moveFrame (f * 2 ^ 16) (m.frame * 2 ^ 16) n
      let u := ({ u with mem := u.mem.write w.leafAt 8 (setBits w.leaf 16 36 m.frame) } : State).revoke va.toNat
      exec (.migrationSwitchover va) s = .next { u with
        mem := u.mem.write w.leafAt 8 (setBits (u.walk va.toNat).leaf 9 1 0)
        migrations := u.migrations.erase m }) ∧
    (∀ id pa k v, Map.get? s.refusedWrites id = some (pa, k, v) → s.migrationAt pa = none →
      exec (.migrationWriteRetry id) s = .next (({ s with refusedWrites := Map.erase s.refusedWrites id } : State).putMem pa k v)) ∧
    (∀ id pa k v m off, Map.get? s.refusedWrites id = some (pa, k, v) → s.migrationAt pa = some (m, off) →
      m.parked.length < 64 → exec (.migrationWriteRetry id) s = .next { s with
        refusedWrites := Map.erase s.refusedWrites id
        migrations := s.migrations.map fun x => if x = m then { x with parked := x.parked ++ [(off, k, v)] } else x })

/-! ## Accumulates, exchanges, barriers and collectives -/

/-- A normal accumulate is refused where two are in flight on its line or its berth's quota in the window is used up, and is otherwise
accepted: it is applied lane by lane with saturation, at once or behind those that wait at the slice (the model's reading, log 49), and its
reply is due. A forced one joins its slice's queue. One kept at its source leaves once its line's home stands; one to a package that no
port reaches does not arrive, and is to be resent. -/
def Sys2Proof.Claims.AccumulateArrival : Prop :=
  ∀ (s : State) (id : Nat) (a : Addend), Map.get? s.messages id = some (.acc a) → a.decided = false →
    (a.kept = true → s.moving a.line = true → exec (.acchArrive id) s = .next s) ∧
    (a.kept = true → s.moving a.line = false → ∃ t b, exec (.acchArrive id) s = .next t ∧ Map.get? t.messages id = some (.acc b) ∧
      b.kept = false ∧ b.addends = a.addends ∧ b.line = a.line ∧ .acchArrive id ∈ t.agenda) ∧
    (a.kept = false → s.unreachable a.line = true →
      exec (.acchArrive id) s = .next { s with sentAt := Map.set s.sentAt id s.now }) ∧
    (a.kept = false → s.unreachable a.line = false →
    let slice := s.accSlice a.line
    let queued (u : State) : State := { u with
      forced := Map.set u.forced slice (Map.getD u.forced slice [] ++ [id]), agenda := u.agenda ++ [.forcedAccumulateApply slice] }
    (a.forced = true → exec (.acchArrive id) s =
      .next (queued { s with messages := Map.set s.messages id (.acc { a with decided := true }) })) ∧
    (a.forced = false → s.target a.line = .dram → 2 ≤ s.inFlight a.line ∨ a.quota ≤ s.acceptedNow a.core a.berth slice →
      exec (.acchArrive id) s =
        .next (((s.countSlice slice 8).setMsg id (.acc { a with decided := true, accepted := false })).later (.acchReply id))) ∧
    (a.forced = false → s.target a.line = .dram → s.inFlight a.line < 2 → s.acceptedNow a.core a.berth slice < a.quota →
      let n := s.accWindow * 2 ^ 20 + s.acceptedNow a.core a.berth slice + 1
      let u : State := { s with accepted := Map.set s.accepted (accSender a.core a.berth slice) n }
      let u := (u.countSlice slice 7).setMsg id (.acc { a with decided := true, accepted := true, applied := false })
      (Map.getD s.forced slice [] = [] → exec (.acchArrive id) s =
        .next ((((u.stampAcc a).applyAddends a.line a.addends a.marks).later (.acchApplyDone id)).later (.acchReply id))) ∧
      (Map.getD s.forced slice [] ≠ [] → exec (.acchArrive id) s = .next ((queued u).later (.acchReply id)))))

/-- An accepted accumulate whose application has finished leaves its line; its reply, accepted, completes its command; of those that
wait at a slice the first is applied, a forced one once no normal one is in flight on its line; an entry of a residual table that is to
be forced is sent in the forced class. -/
def Sys2Proof.Claims.AccumulateProgress : Prop :=
  ∀ (s : State) (id : Nat) (a : Addend),
    (Map.get? s.messages id = some (.acc a) → a.forced = false → a.accepted = true → a.applied = false →
      (Map.getD s.forced (s.accSlice a.line) []).contains id = false →
      exec (.acchApplyDone id) s =
        .next ((if a.replied then s.received id else s.setMsg id (.acc { a with applied := true })).later
          (.forcedAccumulateApply (s.accSlice a.line)))) ∧
    (Map.get? s.messages id = some (.acc a) → a.forced = false → a.decided = true → a.accepted = true → a.entry = none →
      a.replied = false → s.launch a.slot ≠ none →
      let u := s.accAnswered a
      let v := if a.applied then u.received id else u.setMsg id (.acc { a with replied := true })
      exec (.acchReply id) s = .next ((v.acchPerformed a.cmd).nudgeFlush a.core a.berth)) ∧
    (∀ slice, Map.getD s.forced slice [] = [id] → Map.get? s.messages id = some (.acc a) →
      let u : State := { s with forced := Map.erase s.forced slice }
      let v := (u.stampAcc a).applyAddends a.line a.addends a.marks
      (a.forced = false → exec (.forcedAccumulateApply slice) s = .next (v.later (.acchApplyDone id))) ∧
      (a.forced = true → a.entry = none → (s.messages.any fun x => x.2.normalInFlight a.line && x.1 != id) = false →
        exec (.forcedAccumulateApply slice) s =
          .next (((v.countSlice slice 9).received id).nudgeFlush a.core a.berth))) ∧
    (∀ c b i n l, s.launches = [(n, l)] → l.hasTables c = true → s.mustForce n c b (s.residual l c b i) = true →
      let r := s.residual l c b i
      exec (.residualAgeForce c b i) s = .next ((s.putResidual l c b i { r with state := 3, value := 0, mark := 0 }).sendForced
        n c b (256 * r.line) r.value r.mark (some i)))

/-- A packet of XST data of the present phase is written to the back bank of a launch that owns it, with the marks of its blocks, and its
bytes are counted, behind those of the task's earlier XSTs to the same bytes; of another bank the bytes are discarded and recorded; one of a later phase takes a place of the early buffer and is counted, or waits while the buffer holds 16. -/
def Sys2Proof.Claims.ExchangeArrival : Prop :=
  ∀ (s : State) (id cmd cl tag first n bytes : Nat) (early : Bool) (k : Command) (b0 marks m core ident offset ba bb : Nat),
    Map.get? s.messages id = some (.xst cmd cl tag first n bytes early) → Map.get? s.commands cmd = some k →
    k.work = .xst b0 marks m core ident offset ba bb →
    let bank := if tag % 2 = 0 then bb else ba
    let held := (s.messages.filter fun e => match e.2 with
      | .xst _ c _ _ _ _ x => c == cl && x
      | _ => false).length
    let now := tag = s.phase cl k.slot ident ∧ s.xstBehind k (.xst cmd cl tag first n bytes early) = false
    let hit := s.marked.contains id
    (now → ((s.cluster cl).bank bank).mode = .scratchpad →
      ((s.cluster cl).bank bank).owner = some k.slot →
      let r := (s.received id).writeXst k cl (bank * 2 ^ 17 + offset + first) n bytes (marks / 2 ^ (first / 128))
      exec (.xstArrive id) s = .next (r.1.ackXst cmd cl n r.2 true hit)) ∧
    (now → ((s.cluster cl).bank bank).mode ≠ .scratchpad ∨ ((s.cluster cl).bank bank).owner ≠ some k.slot →
      exec (.xstArrive id) s = .next ((s.received id).ackXst cmd cl n 0 false hit)) ∧
    (tag = s.phase cl k.slot ident → s.xstBehind k (.xst cmd cl tag first n bytes early) = true →
      exec (.xstArrive id) s = .next s) ∧
    (tag ≠ s.phase cl k.slot ident → early = false → held < 16 → exec (.xstArrive id) s =
      .next ((s.count cl 0xB).setMsg id (.xst cmd cl tag first n bytes true))) ∧
    (tag ≠ s.phase cl k.slot ident → early = true ∨ 16 ≤ held → exec (.xstArrive id) s = .next s)

/-- A barrier: an arrival short of COUNT joins its record, the arrival that completes a round joins the members' clocks and sends the
completion to each member's cluster; a completion records the cluster's PHASE and lets its members go on. -/
def Sys2Proof.Claims.BarrierRounds : Prop :=
  ∀ (s : State) (id : Nat),
    let u := s.received id
    (∀ c b slot w swap, Map.get? s.messages id = some (.bar c b slot w swap) →
      let u := u.setMark id (s.marked.contains id)
      let x := (u.barrier (groupHome w) slot (groupId w)).arrive (c, b, id) w swap
      (x.arrived.length < x.count → exec (.barArrival id) s = .next (u.setBarrier x)) ∧
      (x.count ≤ x.arrived.length →
        let y : Barrier := { x with
          arrived := [], gen := x.gen + 1, phase := x.phase + (if x.usesBanks && x.swap then 1 else 0), swap := false }
        exec (.barArrival id) s = .next (((x.arrived.map fun m => clusterOf m.1).dedup).foldl (fun (t : State) cl =>
          (t.carry pkAnswer (.quay (groupHome w)) (.quay cl)).send
            (.barDone cl slot x.ident y.phase (x.arrived.filter fun m => clusterOf m.1 == cl)))
            ((u.setBarrier y).joinMembers x.arrived)))) ∧
    (∀ cl slot ident phase c b m, Map.get? s.messages id = some (.barDone cl slot ident phase [(c, b, m)]) → b < 8 →
      (s.berth c b).awaiting = some m → u.messages.all (fun e => !(u.xstWaits cl slot ident e.2)) = true →
      let v : State := { u with phases := Map.set s.phases (phaseKey cl slot ident) phase }
      exec (.barCompletionArrive id) s = .next ((if v.marked.contains m then (v.setMark m false).count cl 6 else v).onBerth c b fun x =>
        { x with awaiting := none, atBar := false }.settle))

/-- A contribution that leaves its round short is kept, and its command is performed where it receives no result; one that completes the round gives every contributor that receives it the result
of the tree over the ranks, as it does for every further round that the contributions kept make up then. -/
def Sys2Proof.Claims.Collectives : Prop :=
  ∀ (s : State) (id cmd : Nat) (k : Command) (j : CollJob), Map.get? s.messages id = some (.coll cmd) →
    Map.get? s.commands cmd = some k → k.work = .coll j →
    let u := (s.received id).setMark cmd (s.marked.contains id)
    let x : Contribution := { slot := k.slot, cmd := cmd, job := j }
    let l := s.contributions ++ [x]
    let r := roundOf (l.filter x.joins)
    let home := clusterOf k.core
    (j.receives = false → roundFull r = false → exec (.collContribution id) s = .next
      { (((u.carry pkAnswer (homeEnd j.cluster) (.quay home)).returnMark cmd home).setCommand cmd { k with done := 1 }).later
          (.engineCommandComplete cmd) with contributions := l }) ∧
    (j.receives = true → roundFull r = false → exec (.collContribution id) s = .next { u with contributions := l }) ∧
    (j.receives = true → ∀ y rest, r = y :: rest → roundFull r = true →
      let v := r.foldl (fun (t : State) z => t.deliver z (roundResult r y.job)) { u with contributions := l.filter fun z => !r.contains z }
      exec (.collContribution id) s = .next (State.endRounds x s.contributions.length v) ∧
      (roundFull (roundOf (v.contributions.filter x.joins)) = false → exec (.collContribution id) s = .next v))

/-- XST data reach the back bank of their phase; a barrier completes once all members arrived; a collective gives its result once its round is full. -/
def Obligations.GroupMessages : Prop :=
  Claims.ExchangeArrival ∧ Claims.BarrierRounds ∧ Claims.Collectives

/-! ## Dry dock, errors and capacity -/

/-- A lease: a request that the limits allow is made, unless an event of the dock waits; testing starts once the unit is free of work; a core that has waited 10 ms at a score
below 224 withdraws; a clean verdict returns the unit, and of a lease taken at score 128 or more resets its score;
a pattern that fails twice retires a unit of no core, and each that fails once costs it 64 points. That the other member of a pair goes
on IN_SERVICE once the tests of the requested one begin is the model's choice (log 97). -/
def Sys2Proof.Claims.DryDock : Prop :=
  ∀ (s : State) (kind index : Nat),
    let held := s.waits [0x10, 0x12]
    (held = false → unitExists kind index = true → s.inService kind index = true → kind ≠ 5 → s.leaseAllowed kind index = true →
      exec (.dockRequest kind index) s = .next (s.startLease kind index)) ∧
    (held = true → exec (.dockRequest kind index) s = .next { s with stalledRows := s.stalledRows ++ [.dockRequest kind index] }) ∧
    (∀ l, held = false → s.leaseOf 0 index = some l → l.state = 1 → l.kind = 0 → s.freeOfWork l = true →
      exec (.dockTestingStart 0 index) s = .next (let u := s.putLease { l with state := 2, since := s.now, docked := s.now }
        (u.setCore index { s.core index with service := .leased }).resumeCore (pairCore index))) ∧
    (∀ l, held = false → s.leaseOf kind index = some l → l.state = 1 → l.kind ≤ 2 → 25000000 ≤ s.now - l.since → s.coreScore index < 224 →
      exec (.dockWithdraw kind index) s = .next (s.returnUnit l 4 2)) ∧
    (held = true → exec (.dockWithdraw kind index) s = .next { s with stalledRows := s.stalledRows ++ [.dockWithdraw kind index] }) ∧
    (∀ l runs, held = false → s.leaseOf kind index = some l → l.state = 2 → runs.all (fun r => !r.failsFirst) = true → l.score < 128 →
      exec (.dockVerdict kind index runs) s = .next (s.returnUnit l 5 0)) ∧
    (∀ l runs, held = false → s.leaseOf kind index = some l → l.state = 2 → runs.all (fun r => !r.failsFirst) = true → 128 ≤ l.score →
      let m := (if l.kind ≤ 2 then [0, 1, 2] else [l.kind]).foldl (fun (m : Map Nat) k => Map.set m (k * 2 ^ 24 + index) 0) s.scores
      exec (.dockVerdict kind index runs) s = .next (({ s with scores := m } : State).returnUnit l 6 1)) ∧
    (∀ l runs r, held = false → s.leaseOf kind index = some l → l.state = 2 → 2 < l.kind →
      runs.find? (fun r => r.failsFirst && r.failsSecond) = some r →
      exec (.dockVerdict kind index runs) s = .next (s.retireUnit l.kind index 1 r)) ∧
    (∀ l runs, held = false → s.leaseOf kind index = some l → l.state = 2 → 2 < l.kind →
      runs.all (fun r => !(r.failsFirst && r.failsSecond)) = true → runs.any (fun r => r.failsFirst) = true →
      exec (.dockVerdict kind index runs) s = .next
        (((runs.filter fun r => r.failsFirst).foldl (fun t _ => t.raiseScore l.kind index 64) s).returnUnit l 5 0))

/-- The host retires a unit other than a channel, which leaves service with a record of CAUSE 2, and every launch it concerns is told; a
band that is due, once the host has vacated it, retires its channel with CAUSE 4. -/
def Sys2Proof.Claims.Retirements : Prop :=
  ∀ s : State, s.waits [0x10, 0x12] = false →
    (∀ index, unitExists 6 index = true → s.isRetired 6 index = false → exec (.retire 6 index) s =
      .next (let u := s.putLease ⟨6, index, 7, s.unitScore 6 index, s.now, s.now⟩
        let v := u.writeRecord 6 index 2 noRun 0xFFFF 0 true
        (s.launches.foldl (fun (t : State) e => t.notifyLaunch e.1 e.2 6 index 0 v.records.length) v).requestAgain)) ∧
    (∀ index, unitExists 0 index = true → s.isRetired 0 index = false → exec (.retire 0 index) s =
      .next (let u := s.putLease ⟨0, index, 7, s.unitScore 0 index, s.now, s.now⟩
        let v := u.writeRecord 0 index 2 noRun 0xFFFF 0 true
        ((s.coreAudience index).foldl (fun (t : State) x => t.notifyLaunch x.1 x.2.1 0 index x.2.2 v.records.length)
          (v.retireCore index)).requestAgain)) ∧
    (∀ band ch, s.bandsDue.find? (fun x => x.1 == band) = some (band, ch) → exec (.banddone band) s =
      .next (let u : State := { s with bandsDue := s.bandsDue.filter fun x => x.1 != band }
        let v := (u.putLease ⟨5, ch, 7, s.score 5 ch, s.now, s.now⟩).writeRecord 5 ch 4 noRun 0xFFFF band true
        v.launches.foldl (fun (t : State) e => t.notifyLaunch e.1 e.2 5 band 2 v.records.length) v))

/-- LEASE.REQ and LEASE.END write their status; a lease goes from its request to its verdict; units retire with a record and their launches are told. What becomes of a pair whose other member is leased is the model's choice (log 97). -/
def Obligations.Leases : Prop :=
  Claims.LeaseStatus ∧ Claims.DryDock ∧ Claims.Retirements

/-- Errors: what each charges to its unit, the poison bit of a granule or the mark of a block, the POISON of the berth whose own state is
hit, and the drop of a packet, counted against its link, of the torus or of a scale-up port. The channel of a stack that is charged
(log 71), the quay that counts a drop (log 89) and the timer of the resending (log 77) are the model's choices. -/
def Sys2Proof.Claims.Errors : Prop :=
  ∀ s : State,
    (∀ addr ch, exec (.dramUncorrectableError addr ch) s =
      .next ((s.poison addr).raiseScore 5 (132 * stackOfAddr addr + ch % 132) 32)) ∧
    (∀ kind i, unitExists kind i = true → exec (.correctedError kind i) s = .next (s.correctedError kind i)) ∧
    (∀ kind i, i < 2 ^ 24 → let t := s.correctedError kind i
      (∀ n, Map.getD t.corrected n 0 = Map.getD s.corrected n 0 + if n = kind * 2 ^ 24 + i then 1 else 0) ∧
      t.score kind i = min 255 (s.score kind i + 1) ∧
      (∀ k n, n < 2 ^ 24 → (k, n) ≠ (kind, i) → t.score k n = s.score k n) ∧
      t.agenda = s.agenda ++ (if 128 ≤ min 255 (s.score kind i + 1) then [.dockRequest kind i] else []) ∧
      { t with corrected := s.corrected, scores := s.scores, agenda := s.agenda } = s) ∧
    (∀ link, link < 2 ^ 24 → let n := if link < 192 then link else link - 192
      let kind := if link < 192 then 3 else 6
      ∃ t, exec (.packetCrcDrop link) s = .next t ∧ t.score kind n = min 255 (s.score kind n + 1) ∧
        Map.getD t.corrected (kind * 2 ^ 24 + n) 0 = Map.getD s.corrected (kind * 2 ^ 24 + n) 0 + 1) ∧
    (∀ link, let u := if link < 192 then s.correctedError 3 link else s.correctedError 6 (link - 192)
      ((∀ i ∈ u.agenda, u.rowOver link i = none) →
        exec (.packetCrcDrop link) s = .next (if link < 192 then u.count (linkTarget link) 4 else u)) ∧
      ∀ i l id, u.agenda = i :: l → (u.rowOver link i).map Prod.fst = some id →
        ∃ t, exec (.packetCrcDrop link) s = .next t ∧ i ∉ t.agenda ∧ Map.get? t.sentAt id = some s.now) ∧
    (∀ c b k n, (s.berth c b).task.isSome = true → exec (.berthStateUncorrectableError c b k n) s =
      .next ((s.raiseError c b ⟨0x0C, 0, 0, 3 * 2 ^ 60 + k % 8 + n % 32 * 2 ^ 8⟩ false).raiseScore 0 c 32)) ∧
    (∀ unit addr, exec (.l2ScratchpadUncorrectableError true unit addr) s = .next ((s.poison addr).raiseScore 4 unit 32)) ∧
    (∀ unit addr, exec (.l2ScratchpadUncorrectableError false unit addr) s =
      .next ((s.onBlock (clusterOf unit) addr fun x => { x with mark := true }).raiseScore 0 unit 32)) ∧
    (∀ id a, Map.get? s.accesses id = some a → a.done = false → a.resends < 8 → a.sc = false →
      exec (.transportResend id) s = .next (let u := s.count (clusterOf a.core) 0xC
        ({ u with accesses := Map.set u.accesses id { a with resends := a.resends + 1 }
                  sentAt := Map.erase s.sentAt id } : State).later (.accessPerform id))) ∧
    (∀ id a, Map.get? s.accesses id = some a → a.resends = 8 →
      exec (.transportResend id) s = .next (({ s with sentAt := Map.erase s.sentAt id } : State).loseAccess id a))

/-- Scores: a unit's score rises by a charge and saturates at 255, from 128 on the sequencer is to request the unit; each hour every score
falls by one and is saved; an orderly shutdown saves the scores and changes nothing else. -/
def Sys2Proof.Claims.Scores : Prop :=
  ∀ s : State,
    (∀ kind index n, index < 2 ^ 24 → (s.raiseScore kind index n).score kind index = min 255 (s.score kind index + n) ∧
      (s.raiseScore kind index n).agenda =
        s.agenda ++ (if 128 ≤ min 255 (s.score kind index + n) then [.dockRequest kind index] else [])) ∧
    (∃ t, exec .scoreHourlyDecay s = .next t ∧ t.scores = s.scores.map (fun e => (e.1, e.2 - 1)) ∧ t.savedScores = t.scores) ∧
    exec .orderlyShutdown s = .next { s with savedScores := s.scores }

/-- What each hardware error marks and charges, and how the scores saturate, decay and are saved. The channel a line stands on (log 71), where a dropped packet is counted (log 89) and the timer of its resending (log 77) are the model's choices. -/
def Obligations.ErrorsAndScores : Prop :=
  Claims.Errors ∧ Claims.Scores

/-! ## The host's side -/

/-- The event ring; the order in which events of one step are accepted, and the low bits of its base, which read zero, are the model's
readings (logs 57, 26). An accepted event takes the next SEQ: with room its record is written to the slot of SEQ - 1 and EVQWR becomes SEQ;
without, it is held; where 256 are held already, an event of a droppable code is dropped and counted. A write of EVQRD arms the completion
message, and the ring's base and size are written while no launch is admitted. -/
def Obligations.EventRing : Prop :=
  ∀ s : State,
    (∀ e rest, s.raised = e :: rest → e.code ∉ [1, 2, 3, 4] →
      let c := s.ctrl
      (s.ringFull = false → s.stamped = [] → s.evqArmed = false → exec .eventAccept s = .next {
        s.dieTrips true (c.evqbase.toNat + 32 * (s.seq % 2 ^ c.evqlog2.toNat)) 32 with
        raised := rest, seq := s.seq + 1
        mem := s.mem.write (c.evqbase.toNat + 32 * (s.seq % 2 ^ c.evqlog2.toNat)) 32 (e.record (s.seq + 1))
        ctrl := { c with evqwr := .ofNat 64 (s.seq + 1) } }) ∧
      (s.ringFull = true → s.stamped.length < 256 → exec .eventAccept s =
        .next { s with raised := rest, seq := s.seq + 1, stamped := s.stamped ++ [(s.seq + 1, e)] }) ∧
      (s.ringFull = true → 256 ≤ s.stamped.length → droppable e.code = true → exec .eventAccept s =
        .next { s with raised := rest, ctrl := { c with evqdrops := c.evqdrops + 1 } })) ∧
    (s.ringOn = true → s.evqArmed = true → s.ctrl.evqirq.getLsbD 0 = true → s.ctrl.evqwr ≠ s.ctrl.evqrd →
      exec .evqCompletionMessage s = .next { s with evqArmed := false, evqMessages := s.evqMessages + 1 }) ∧
    (s.evqArmed = false ∨ s.ringOn = false → exec .evqCompletionMessage s = .next s) ∧
    (∀ v : Word, s.stamped = [] → s.raised = [] → exec (.evqrdWrite v) s = .next { s with
      ctrl := { s.ctrl with evqrd := v }, evqArmed := true
      agenda := s.agenda ++ (if s.ctrl.evqwr = v then [] else [.evqCompletionMessage]) }) ∧
    (∀ base log2 : Word, s.stamped = [] → s.raised = [] → s.readyDue = false →
      (s.launches = [] → exec (.evqRingEnable base log2) s = .next { s with
        ctrl := { s.ctrl with evqset := true, evqbase := .ofNat 64 (base.toNat / 4096 * 4096), evqlog2 := .ofNat 64 (log2.toNat % 32) } }) ∧
      (s.launches ≠ [] → exec (.evqRingEnable base log2) s = .next s))

/-- Page faults: a berth whose earlier results are written parks, and PAGE_FAULT with its SEQ is posted; RETRY has its handle translated
again, and FAIL has the trap taken at its bundle; of an engine command RETRY has its translation checked again, and FAIL stops it. The
host's revocation, the clearing of pin counts and of a poison bit. -/
def Obligations.FaultAnswers : Prop :=
  ∀ s : State,
    (∀ c b h w t, (s.berth c b).park = some (.pageFault h w t) → (s.berth c b).status ≠ .parked → (s.berth c b).status ≠ .free →
      s.earlierDone c b = true → exec (.pageFaultPark c b h) s = .next ((s.onBerth c b fun x => { x with status := .parked }).post
        ⟨4, (s.berth c b).slot, b, c, t.info, if w then 2 else 0, none⟩)) ∧
    (∀ seq f h w t, s.faults = [f] → f.seq = seq → f.command = none → f.berth < 8 →
      (s.berth f.core f.berth).park = some (.pageFault h w t) → (s.berth f.core f.berth).partner = none →
      let x := s.berth f.core f.berth
      let hd := vget x.regs.h h Handle.zero
      (∃ v, exec (.pfreplyRetry seq) s = .next v ∧ v.faults = [] ∧ v.berth f.core f.berth =
          { x with status := .ready, park := none, regs := x.regs.putH h { hd with ready := false, valid := true } } ∧
        v.walks = s.walks ++ [⟨f.core, f.berth, h, hd.vpn.toNat * 2 ^ 16⟩] ∧
        v.agenda = s.agenda ++ [.xlatWalkComplete f.core f.berth h] ∧ SameBytes s v) ∧
      ∃ v, exec (.pfreplyFail seq) s = .next v ∧ v.faults = [] ∧
        v.berth f.core f.berth = { x with status := .ready, park := some (.failed t) } ∧ v.agenda = s.agenda ∧ SameBytes s v) ∧
    (∀ seq f id k, s.faults = [f] → f.seq = seq → f.command = some id → Map.get? s.commands id = some k → k.suspended = true →
      exec (.pfreplyRetry seq) s = .next { s with
        faults := [], commands := Map.set s.commands id { k with suspended := false }
        agenda := s.agenda ++ [.engineGranuleCheck id] } ∧
      exec (.pfreplyFail seq) s = .next (({ s with faults := [] } : State).stopCommand id { k with suspended := false } 0x0A)) ∧
    (∀ va : Word, s.revokeBusy = false → (s.walk va.toNat).hasLeaf = true → exec (.hostRevoke va) s =
      .next (({ s with ctrl := { s.ctrl with revoking := some va.toNat } } : State).revoke va.toNat)) ∧
    (∀ va : Word, s.revokeBusy = true ∨ (s.walk va.toNat).hasLeaf = false → exec (.hostRevoke va) s = .next s) ∧
    (∀ slice, ∃ t, exec (.pinclr slice) s = .next t ∧ { t with pins := s.pins } = s ∧
      ∀ line, s.homeSlice (256 * line) = slice % 128 → Map.getD t.pins line 0 = 0) ∧
    (∀ addr : Word, addr.toNat < 0xC000000000 → s.mem.wf = true → ∃ t, exec (.poisonclr addr) s = .next t ∧
      { t with mem := s.mem } = s ∧
      let a := s.ctrl.poisonmap.toNat + addr.toNat / 4096 / 8
      (∀ b, b ≠ a → t.mem.byte b = s.mem.byte b) ∧
      ∀ i, i < 8 → (t.mem.byte a).getLsbD i = (decide (i ≠ addr.toNat / 4096 % 8) && (s.mem.byte a).getLsbD i))

/-- The host's windows: the mailbox's commands and their error (the model's choices, logs 16, 88), the APERTURE, whose access is performed
at its line's home, waits while that moves or for its window, and is lost where no port reaches its package, and the CTRL registers, of which those marked idle accept a
write only while no launch is admitted and DOCKHRS and PCAP only a value in their range; the low bits of the bases read zero, the model's reading
(log 26). -/
def Obligations.HostWindows : Prop :=
  ∀ s : State,
    (∀ nonce, exec (.mboxAttest nonce) s = .next (
      let body := s.reportBody nonce
      let report := body.toNat + (Config.signature body s.stamp).toNat * 2 ^ 768
      let m := (((s.ctrl.mbox.write 0x210 32 nonce).write 0x200 4 1).write 0x240 160 report).write 0x204 4 2
      { s with stamp := s.stamp + 1, ctrl := { s.ctrl with mbox := m } })) ∧
    exec .mboxPublicKey s = .next (
      let m := ((s.ctrl.mbox.write 0x200 4 2).write 0x240 64 Config.publicKey.toNat).write 0x204 4 2
      { s with ctrl := { s.ctrl with mbox := m } }) ∧
    (∀ cmd, exec (.mboxError cmd) s = .next (
      let m := (s.ctrl.mbox.write 0x200 4 cmd).write 0x204 4 3
      { s with ctrl := { s.ctrl with mbox := m } })) ∧
    (∀ off n v, let pa := s.ctrl.apbase.toNat + off
      let here := off + n ≤ 2 ^ 36 ∧ s.target pa ≠ .reserved
      let moves := ∃ i ∈ s.hostLines pa n, s.moving (256 * i) = true
      let rd : Instr := .apertureRead off n
      let wr : Instr := .apertureWrite off n v
      (here → s.unreachable pa = true → ∀ i ∈ [rd, wr], ∃ t, exec i s = .next t ∧ t.mem = s.mem ∧
        (⟨0x14, 0xFF, 0x80, 0xFFFF, pa, 0, none⟩ : Event) ∈ t.raised) ∧
      (here → s.unreachable pa = false → moves → ∀ i ∈ [rd, wr], exec i s = .next { s with stalledRows := s.stalledRows ++ [i] }) ∧
      (∀ h, here → s.unreachable pa = false → ¬ moves → s.hostShut (s.hostLines pa n) = some h → ∀ i ∈ [rd, wr],
        exec i s = .next (s.windowWait (portSource (attachedQuay h)) h i)) ∧
      (here → s.unreachable pa = false → ¬ moves → s.hostShut (s.hostLines pa n) = none →
        (∃ t, exec (.apertureRead off n) s = .next t ∧ t.hostReply = .ofNat 64 (s.mem.read pa n) ∧ t.mem = s.mem) ∧
        ∃ t, exec (.apertureWrite off n v) s = .next t ∧ t.mem = s.mem.write pa n v ∧ t.cores = s.cores ∧ t.clusters = s.clusters) ∧
      (off + n ≤ 2 ^ 36 → s.target pa = .reserved →
        exec (.apertureRead off n) s = .next { s with hostReply := 0 } ∧ exec (.apertureWrite off n v) s = .next s)) ∧
    (∀ v : Word, let c := s.ctrl
      (s.launches = [] →
        exec (.ctrlRegisterWrite 0x100 v) s = .next { s with ctrl := { c with xroot := .ofNat 64 (v.toNat / 65536 * 65536) } } ∧
        exec (.ctrlRegisterWrite 0x108 v) s = .next { s with ctrl := { c with spilltab := .ofNat 64 (v.toNat / 4096 * 4096) } } ∧
        exec (.ctrlRegisterWrite 0x110 v) s = .next { s with ctrl := { c with poisonmap := .ofNat 64 (v.toNat / 65536 * 65536) } } ∧
        exec (.ctrlRegisterWrite 0x120 v) s = .next { s with ctrl := { c with pkgnum := v &&& 0x1FF } }) ∧
      (s.launches ≠ [] → ∀ off ∈ [0x100, 0x108, 0x110, 0x120], exec (.ctrlRegisterWrite off v) s = .next s) ∧
      (1 ≤ v.toNat → v.toNat ≤ 168 → exec (.ctrlRegisterWrite 0x128 v) s = .next { s with ctrl := { c with dockhrs := v } }) ∧
      (v.toNat = 0 ∨ 168 < v.toNat → exec (.ctrlRegisterWrite 0x128 v) s = .next s) ∧
      (1000 ≤ v.toNat → v.toNat ≤ 3400 → exec (.ctrlRegisterWrite 0x170 v) s = .next { s with ctrl := { c with pcap := v } }) ∧
      (v.toNat < 1000 ∨ 3400 < v.toNat → exec (.ctrlRegisterWrite 0x170 v) s = .next s) ∧
      ∀ n, n < 1536 → ∃ t, exec (.ctrlRegisterWrite (0x1000 + 8 * n) v) s = .next t ∧
        t.core n = { s.core n with tvec := v &&& 0x7FF } ∧ ∀ m, m ≠ n → t.core m = s.core m)

/-- Power and bring-up: requests that fit the cap are granted whole (the model's choice for the arbiter, log 30); 120 °C cuts the power and
100 °C and 110 °C slow an island, whose sensor waits while its event does; reset keeps DRAM (the model's reading, log 56), the records and the
saved scores (log 4), and is what ends a cut of power (log 64); the firmware that starts sets READY, and one that
does not FWERR. -/
def Obligations.PowerAndBringUp : Prop :=
  ∀ s : State,
    (∀ requests : List Nat,
      let ask (i : Nat) : Nat := requests.getD i 0 / min 2 (s.island i).heat
      ((List.range 24).map ask).sum ≤ s.ctrl.pcap.toNat - Config.ioShare →
      ∃ t, exec (.powerArbitration requests) s = .next t ∧
        ∀ i, i < 24 → (t.island i).grant = ask i ∧ (t.island i).request = requests.getD i 0) ∧
    (∀ i d, 120 ≤ d → exec (.thermalThreshold i d) s = .next { s with off := true }) ∧
    (∀ i d, s.heatWaits i = true → d < 120 →
      exec (.thermalThreshold i d) s = .next { s with stalledRows := s.stalledRows ++ [.thermalThreshold i d] }) ∧
    (∀ i d, s.heatWaits i = false → d < 120 → ∃ t, exec (.thermalThreshold i d) s = .next t ∧ t.off = s.off ∧
      t.island i = { s.island i with heat := if 110 ≤ d then 4 else if 100 ≤ d then 2 else 1 } ∧
      t.raised = s.raised ++ (if 110 ≤ d ∧ (s.island i).heat ≠ 4 then [⟨0x16, 0xFF, 0x80, 0xFFFF, i, d, none⟩] else [])) ∧
    (∃ t, exec .powerOnReset s = .next t ∧ t.off = false ∧ t.mem = s.mem ∧ t.records = s.records ∧ t.scores = s.savedScores ∧
      t.seconds = s.seconds ∧ t.ctrl = { Ctrl.reset with measured := true } ∧ t.launches = [] ∧ t.clusters = [] ∧ t.agenda = [] ∧
      ∀ c b, b < 8 → (t.berth c b).status = .free) ∧
    (s.waits [0x10, 0x12, 0x17] = false → s.ctrl.ready = false → s.ctrl.fwerr = false →
      (∀ failed, exec (.firmwareReady failed false) s = .next { s with ctrl := { s.ctrl with fwerr := true } }) ∧
      (s.ringOn = false → exec (.firmwareReady [] true) s = .next { s with ctrl := { s.ctrl with ready := true }, readyDue := true }) ∧
      (s.ringOn = true → ∃ t, exec (.firmwareReady [] true) s = .next t ∧ t.ctrl = { s.ctrl with ready := true } ∧ t.readyDue = false ∧
        t.raised = s.raised ++ [⟨0x17, 0xFF, 0x80, 0xFFFF, 0x0000000156470009, Config.fwVersion.toNat, none⟩]))

/-! ## Issue, segments and time -/

/-- A cycle of a core: the turn passes on from core to core, the model's choice (log 1), and, where its island's clock has a cycle, as the model
counts its cycles (log 27), the core's counters advance and its selector issues. A
berth's bundle is the word of the instruction memory at its PC, of its own launch, as it decodes; the selector takes a READY berth of the
greatest priority; the bundle is issued where its checks pass; and the operation of a slot is performed with the PC already at the next
bundle, after it each queue of the header's POP loses its head (R93), and LEND goes back to the loop's start or leaves it (R380). -/
def Obligations.BundleIssue : Prop :=
  ∀ s : State,
    (∀ c, let u := if c = s.turn then s.advance else s
      exec (.bundleIssue c) s =
        .next (if (s.island (islandOf (clusterOf c))).ticks s.now then (u.tickCore c).selectIssue c else u)) ∧
    (∀ c b m x, Map.get? (s.core c).imem (s.berth c b).regs.pc.toNat = some m → m.owner = some (s.berth c b).slot →
      decodeBundle m.word = .ok x → s.fetchBundle c b = .ok x) ∧
    (∀ c b, Map.get? (s.core c).imem (s.berth c b).regs.pc.toNat = none →
      s.fetchBundle c b = .error { code := 0x01, slot := 0, timm := 0, info := 2 * 2 ^ 60 }) ∧
    (∀ c l b, s.pick c l = some b → b ∈ l ∧ b < 8 ∧ (s.berth c b).status = .ready ∧
      ∀ d ∈ l, d < 8 → (s.berth c d).status = .ready → (s.berth c d).prio ≤ (s.berth c b).prio) ∧
    (∀ c b x, s.fetchBundle c b = .ok x →
      let u := s.openIssue c b x.hdr
      let v := u.issueBundle x (u.active x)
      (u.judge x (u.active x) = .pass → s.issueFrom c b = if (v.berth c b).closing then v.segmentCommit c b else v) ∧
      (u.judge x (u.active x) ≠ .pass → s.issueFrom c b = u)) ∧
    (∀ (x : Bundle) (k : SlotOp), s.isEntry x [k] = false → s.me.ckpt.isSome = true → Machine.Instr.syncs k.instr = false →
      let u := ((s.onRegs fun r => { r with pc := r.pc + 1 }).performSlot k).popQueues s.popped
      let v := if s.loops [k] = true then u.lend else u
      s.issueBundle x [k] = ((v.closeIssue x [k]).compareControl).onMe fun b => { b with waited := [], timedOut := [] }) ∧
    (s.iss.berth < 8 → ∀ n, n < 4 → n ∈ s.popped ↔ s.bundleOn = true ∧ s.iss.hdr.pop.getLsbD n = true) ∧
    (s.iss.berth < 8 → let t := s.popQueues s.popped
      OnlyMe s t ∧ { t.me with regs := { t.me.regs with q := s.me.regs.q } } = s.me ∧ ∀ n, n < 4 → t.me.regs.queue n =
        { s.me.regs.queue n with head := (s.me.regs.queue n).head + if n ∈ s.popped then 1 else 0 }) ∧
    (∀ (e : LoopEntry) (l : List LoopEntry), s.iss.berth < 8 → s.me.regs.loops = e :: l →
      (e.remaining = 1 → OnlyMe s s.lend ∧ s.lend.me = { s.me with regs := { s.me.regs with loops := l } }) ∧
      (e.remaining ≠ 1 → OnlyMe s s.lend ∧ s.lend.me = { s.me with regs := { s.me.regs with
        pc := e.start, loops := { e with index := e.index + 1, remaining := e.remaining - 1 } :: l } }))

/-- A segment that is to close commits once its results are there: its held items are released in program order, and RETRY and the
checkpoint are gone; a member of a redundant pair waits for the other, and members whose segments differ do not commit. A released STS or SWSET writes its bytes; SWADD counts at its sync word; a released ST is an access on its way. -/
def Sys2Proof.Claims.SegmentCommit : Prop :=
  ∀ (s : State) (c b : Nat), b < 8 →
    (∀ r, (s.berth c b).error = none → (s.berth c b).ckpt = some r → s.commitReady c b = true → (s.berth c b).partner = none →
      exec (.segmentCommit c b) s = .next ((s.commitSegment c b).performDeferred c b)) ∧
    ((s.berth c b).held = [] → (s.berth c b).subs = [] → s.writebacks = [] →
      (∀ n, n < 4 → ((s.berth c b).regs.queue n).splice ≠ .fed) →
      let y := { s.berth c b with
        ckpt := none, closing := false, matched := false, diverged := false, rewinding := false, held := []
        segE := [], accWritten0 := 0, accWritten1 := 0, regs := { (s.berth c b).regs with retry := false } }
      s.commitSegment c b = s.setBerth c b (if y.afterSync = true ∧ y.status = .stalled ∧ y.lastDone = true
        then { y with status := .ready } else y)) ∧
    (∀ d e, (s.berth c b).error = none → (s.berth c b).ckpt.isSome = true → (s.berth c b).partner = some (d, e) →
      (s.berth c b).matched = false → (s.berth d e).status ≠ .free → s.commitReady c b = true →
      (s.commitReady d e = false → exec (.segmentCommit c b) s = .next s) ∧
      (s.commitReady d e = true → (s.berth c b).regs.pc ≠ (s.berth d e).regs.pc → (c, b) ≠ (d, e) → e < 8 →
        ∃ t, exec (.segmentCommit c b) s = .next t ∧ (t.berth c b).error.isSome = true ∧ (t.berth d e).error.isSome = true ∧
          (t.berth c b).held = (s.berth c b).held ∧ (t.berth c b).ckpt = (s.berth c b).ckpt ∧ SameBytes s t)) ∧
    ((s.berth c b).error = none → (s.berth c b).ckpt.isSome = true → s.commitReady c b = false →
      exec (.segmentCommit c b) s = .next s) ∧
    (∀ a n v, let t := s.releaseItem c b (.sts a n v)
      (t.cluster (clusterOf c)).spad = (s.cluster (clusterOf c)).spad.write a n v ∧ t.mem = s.mem) ∧
    (∀ a v, (s.cluster (clusterOf c)).spad.wf = true →
      let m := ((s.releaseItem c b (.swset a v)).cluster (clusterOf c)).spad
      m.read a 4 = v % 2 ^ 32 ∧ m.read (a + 4) 4 = 0 ∧ m.read (a + 12) 4 = 0 ∧
      ∀ x, x < a ∨ a + 16 ≤ x ∨ (a + 8 ≤ x ∧ x < a + 12) → m.byte x = (s.cluster (clusterOf c)).spad.byte x) ∧
    (∀ a v, let o := (s.cluster (clusterOf c)).spad
      o.wf = true → o.read a 4 ≠ 0 → o.read a 4 = o.read (a + 4) 4 + v →
      let m := ((s.releaseItem c b (.swadd a v)).cluster (clusterOf c)).spad
      m.read (a + 4) 4 = 0 ∧ m.read (a + 8) 4 = (o.read (a + 8) 4 + 1) % 2 ^ 32 ∧
      ∀ x, x < a + 4 ∨ a + 12 ≤ x → m.byte x = o.byte x) ∧
    (∀ a v, let o := (s.cluster (clusterOf c)).spad
      o.wf = true → o.read (a + 4) 4 + v < 2 ^ 32 → o.read a 4 = 0 ∨ o.read (a + 4) 4 + v < o.read a 4 →
      let m := ((s.releaseItem c b (.swadd a v)).cluster (clusterOf c)).spad
      m.read (a + 4) 4 = o.read (a + 4) 4 + v ∧ ∀ x, x < a + 4 ∨ a + 8 ≤ x → m.byte x = o.byte x) ∧
    (∀ pa n v ms, ∃ x : Access, (s.releaseItem c b (.store pa n v ms)) =
        { s with stamp := s.stamp + 1, accesses := Map.set s.accesses s.stamp x, agenda := s.agenda ++ [.accessPerform s.stamp] } ∧
      x.done = false ∧ x.kind = 1 ∧ x.pa = pa ∧ x.size = n ∧ x.data = v ∧ x.core = c ∧ x.berth = b)

/-- A rewind, once no LDQ, GATH or CPYM and no matrix operation of the berth is under way: what the failed attempt held is discarded, its
commands with their records and its places in queues, its results are discarded but for the flags they raise, and nothing it held has its
effect. On a first error of the rollback class the checkpoint's registers are back, RETRY is set and REWINDS counts; on a second, and on one
of an access already released, the handler is entered at the segment's entry with the error's record, the task fails where there is no
handler, and an error of a handler is a double trap. Which registers are restored (log 61) and that RETRY is clear in that handler (log 60)
are the model's readings. No byte changes where no place in a spill ring is withdrawn. -/
def Sys2Proof.Claims.Rewind : Prop :=
  ∀ (s : State) (c b : Nat) (e : RollError) (r : Regs), b < 8 →
    let x := s.berth c b
    let mine (w : Writeback) : Prop := w.core = c ∧ w.berth = b
    let under (p : Nat × Command) : Prop := s.owns c b p.2 = true ∧ p.2.push = none ∧ (p.2.op = 3 ∨ p.2.op = 4 ∨ p.2.op = 6)
    let event (code a1 a2 : Nat) : Event :=
      { code := code, lslot := x.slot, berth := b, core := c, arg0 := a1, arg1 := a2, command := none }
    let ended (t : State) : Prop := (t.berth c b).status = .draining ∧ (t.berth c b).failed = true ∧ .taskRetire c b ∈ t.agenda
    let again : Prop := x.regs.retry = true ∨ e.released = true
    x.error = some e → x.ckpt = some r → x.status = .ready ∨ x.status = .stalled → x.failed = false → x.asked = [] →
    (∀ p ∈ s.commands, under p → (s.discardItems c b).slotHeld p.2 = false → .command p.1 ∉ x.held → ∃ t, exec (.rewind c b) s = .next t ∧
      (t.berth c b).regs = x.regs ∧ (t.berth c b).ckpt = some r ∧ (t.berth c b).error = some e ∧ (t.berth c b).held = []) ∧
    ((∀ p ∈ s.commands, ¬ under p) → (∀ m ∈ (s.core c).half0 ++ (s.core c).half1, m.berth ≠ b) →
      ∃ t, exec (.rewind c b) s = .next t ∧ t.accesses = s.accesses ∧
        (∀ n a, (t.cluster n).spad.byte a = (s.cluster n).spad.byte a) ∧
        ((∀ id cl q p, .enq id cl q p ∉ x.held) → t.mem = s.mem) ∧
        (∀ id, Map.get? t.commands id = if .command id ∈ x.held then none else Map.get? s.commands id) ∧
        (∀ id cl q p, .enq id cl q p ∈ x.held → s.shadow c b = false → Map.get? t.reservations id = none) ∧
        t.writebacks = s.writebacks.filter (fun p => decide (¬ mine p.2)) ∧
        let y := t.berth c b
        y.held = [] ∧ y.segE = [] ∧ y.error = none ∧ y.ckpt = none ∧ y.outstanding = [] ∧
        y.regs.g = r.g ∧ y.regs.k = r.k ∧ y.regs.h = r.h ∧ y.regs.loops = r.loops ∧
        (∀ i, y.regs.flags.getLsbD i = true ↔
          x.regs.flags.getLsbD i = true ∨ ∃ p ∈ s.writebacks, mine p.2 ∧ p.2.flags.getLsbD i = true) ∧
        (¬ again → y.status = .ready ∧ y.sup = x.sup ∧ y.entryNext = true ∧ y.regs.pc = r.pc ∧ y.regs.cause = x.regs.cause ∧
          y.regs.epc = x.regs.epc ∧ y.regs.einfo = x.regs.einfo ∧ y.regs.retry = true ∧
          y.regs.rewinds.toNat = min 255 (x.regs.rewinds.toNat + 1)) ∧
        (again → x.sup = false → (s.core c).tvec.setWidth 11 ≠ (0 : BitVec 11) →
          y.status = .ready ∧ y.sup = true ∧ y.regs.pc = (s.core c).tvec.setWidth 11 ∧ y.regs.cause = Trap.cause e.trap ∧
          y.regs.epc = x.regs.entry.setWidth 64 ∧ y.regs.einfo = .ofNat 64 e.trap.info ∧ y.regs.retry = false) ∧
        (again → x.sup = false → (s.core c).tvec.setWidth 11 = (0 : BitVec 11) → ended t ∧
          t.raised = s.raised ++ [event (if trapClass e.trap.code = 1 then 0x0B else 0x0C) (Trap.cause e.trap).toNat x.regs.entry.toNat]) ∧
        (again → x.sup = true → ended t ∧
          t.raised = s.raised ++ [event 0x0E (Trap.cause e.trap).toNat x.regs.cause.toNat]))

/-- SR.PBOUND's count beyond its bound makes the trap due outside a handler, and a WAIT that has been stalled for its limit times out;
before that neither row does anything. -/
def Sys2Proof.Claims.TimeLimits : Prop :=
  ∀ (s : State) (c b : Nat),
    let x := s.berth c b
    (x.regs.bound ≠ 0 → x.regs.bound < x.regs.count → x.sup = false →
      exec (.pboundExpiry c b) s = .next (s.setBerth c b { x with pboundDue := true })) ∧
    (x.regs.bound = 0 ∨ x.regs.count ≤ x.regs.bound ∨ x.sup = true → exec (.pboundExpiry c b) s = .next s) ∧
    (∀ slot n, x.status = .stalled → x.waiting = some (slot, n) → slot ∉ x.timedOut →
      (n ≤ Map.getD x.waited slot 0 → exec (.waitTimeout c b) s =
        .next (s.setBerth c b { x with timedOut := x.timedOut ++ [slot] })) ∧
      (Map.getD x.waited slot 0 < n → exec (.waitTimeout c b) s = .next s)) ∧
    (x.status ≠ .stalled → exec (.waitTimeout c b) s = .next s)

/-- A segment commits and releases what it held; an error of the rollback class restores its checkpoint, and a second one enters the handler; PBOUND and WAIT have their limits. RETRY at that handler (log 60) and the restored set (log 61) are the model's readings. -/
def Obligations.Segments : Prop :=
  Claims.SegmentCommit ∧ Claims.Rewind ∧ Claims.TimeLimits

/-! ## Engines as they run -/

/-- A command's transfers, granule by granule in an order that is the model's reading (logs 10, 18). Its source entries are read once no
command before it has still to write them; its next granules are checked and pass, stop it, suspend it or wait; data that are checked land,
an ACCH's addends leave for their line; and a command whose accesses are all performed is finished. What of these data and results is held
back, and that a source entry about to be overwritten is read first, is the model's reading too (log 25). -/
def Sys2Proof.Claims.EngineProgress : Prop :=
  ∀ (s : State) (id : Nat) (k : Command), Map.get? s.commands id = some k →
    let l := s.run k
    (k.held = true ∨ k.suspended = true ∨ k.checked = true ∨ (k.sent = true ∧ k.isAcch = true) →
      exec (.engineGranuleCheck id) s = .next s) ∧
    (k.held = false → k.suspended = false → k.checked = false → ¬ (k.sent = true ∧ k.isAcch = true) →
      (k.unread ≠ [] → s.readsAfter id k = true → exec (.engineGranuleCheck id) s = .next s) ∧
      (k.unread ≠ [] → s.readsAfter id k = false → ∃ t y, exec (.engineGranuleCheck id) s = .next t ∧
        Map.get? t.commands id = some y ∧ y.work = (s.cluster (clusterOf k.core)).filled k.work k.unread ∧ y.unread = [] ∧
        SameBytes s t) ∧
      (k.unread = [] → l = [] → exec (.engineGranuleCheck id) s = .next (s.later (.engineCommandComplete id))) ∧
      (k.unread = [] → l ≠ [] → s.mustFollow id k l = false → s.fifoReady k l = true → s.slotHeld k = false →
        let u := s.chargeRun k l
        (∀ gens begun, s.granules k l = .ok gens begun → exec (.engineGranuleCheck id) s = .next { u with
          commands := Map.set u.commands id { k with checked := true, gens := gens, begun := begun }
          agenda := u.agenda ++ [.engineDataLand id] }) ∧
        (s.granules k l = .wait → exec (.engineGranuleCheck id) s = .next s) ∧
        (∀ code, s.granules k l = .stop code → exec (.engineGranuleCheck id) s = .next
          (if k.op = 8 then { u with commands := Map.erase u.commands id } else u.stopCommand id k code)) ∧
        (∀ pa w, s.granules k l = .lost pa w → exec (.engineGranuleCheck id) s =
          .next ((u.postQuay (clusterOf k.core) 0x14 k.slot pa (if w then 2 else 0)).stopCommand id k 0x0C)) ∧
        (∀ va w, s.granules k l = .fault va w → k.op = 8 → exec (.engineGranuleCheck id) s =
          .next { u with commands := Map.erase u.commands id }) ∧
        (∀ va w, s.granules k l = .fault va w → k.op ≠ 8 → exec (.engineGranuleCheck id) s =
          .next (({ u with commands := Map.set u.commands id { k with suspended := true } } : State).post
            ⟨4, k.slot, k.berth, k.core, va, 1 + (if w then 2 else 0) + k.op * 2 ^ 8, some id⟩))) ∧
      (k.unread = [] → l ≠ [] → s.mustFollow id k l = true ∨ s.fifoReady k l = false ∨ s.slotHeld k = true →
        exec (.engineGranuleCheck id) s = .next s)) ∧
    (k.checked = true → s.mustQueue k l = false → (∀ n ∈ s.runTargets k l, s.moving (256 * n) = false) →
      s.closedSlice k.source (s.runTargets k l) = none →
      (k.isAcch = false → (∀ a n, k.work ≠ .lines a n) →
        let u := match k.append with
          | some (_, _, a) => s.readOver k.core k.berth a k.entrySize
          | none => s
        exec (.engineDataLand id) s =
          .next ((((u.landRun k l).1.setCommand id (u.landRun k l).2).arrived id).later (.engineGranuleCheck id))) ∧
      (∀ a n, k.work = .lines a n → ∃ t y, exec (.engineDataLand id) s = .next t ∧ Map.get? t.commands id = some y ∧
        y.done = k.done + l.length ∧ y.checked = false ∧ SameBytes s t) ∧
      (∀ va a m q, k.work = .acch va a m q → exec (.engineDataLand id) s =
        .next (s.sendAcch id k ((s.pageOf k va true).pa va) a m q)) ∧
      (∀ va a m q, k.work = .acch va a m q → s.launch k.slot = none → exec (.engineDataLand id) s =
        .next (({ s with commands := Map.set s.commands id { k with checked := false, sent := true } } :
          State).sendAddend ⟨k.core, k.berth, k.slot, some id, (s.pageOf k va true).pa va, a, m, false, none, q, k.pts,
            false, false, false, false, 0, false, false⟩))) ∧
    (k.checked = true → s.mustQueue k l = true ∨ (∃ n ∈ s.runTargets k l, s.moving (256 * n) = true) →
      exec (.engineDataLand id) s = .next s) ∧
    (∀ h, k.checked = true → s.mustQueue k l = false → (∀ n ∈ s.runTargets k l, s.moving (256 * n) = false) →
      s.closedSlice k.source (s.runTargets k l) = some h →
      exec (.engineDataLand id) s = .next (s.windowWait k.source h (.engineDataLand id))) ∧
    (k.checked = false → exec (.engineDataLand id) s = .next s) ∧
    (s.allPerformed k = true → exec (.engineCommandComplete id) s = .next (s.finish id k)) ∧
    (s.allPerformed k = false → exec (.engineCommandComplete id) s = .next s)

/-- A Stevedore pushes the next tile of its subscription once the one before has landed and the queue has room: it reserves the slot at
the tail and starts a load of the tile's origin; the odd member of a redundant pair takes the tile that the even member's push has made. A
result of a slot reaches its entry, which becomes present once it is whole. What holds a result back, and what is read before it is
overwritten, is the model's reading (log 25). -/
def Sys2Proof.Claims.PushesAndResults : Prop :=
  ∀ (s : State),
    (∀ c b n x, b < 8 → (s.berth c b).sub? n = some x → x.stopped = false → x.begun < x.count → x.begun ≤ x.landed →
      x.queue < 4 → s.ending c b = false →
      let q := (s.berth c b).regs.queue x.queue
      let a := q.slotAddr q.tail
      let odd : Bool := (s.berth c b).red && c % 2 == 1
      let twin := s.reader c b
      let own := (s.cluster (clusterOf c)).engineMay (s.berth c b).slot a x.esize
      (q.tail - s.freedHead c b x.queue).toNat < q.cap →
      (∀ u, odd = true → (s.berth twin.1 twin.2).sameSub x = some u →
        (u.landed ≤ x.begun → exec (.stevedorePush c b n) s = .next s) ∧
        (x.begun < u.landed → ∃ t, exec (.stevedorePush c b n) s = .next t ∧
          ((t.berth c b).regs.queue x.queue).tail = q.tail + 1 ∧ t.commands = s.commands ∧ t.agenda = s.agenda ∧
          t.clusters = s.clusters ∧ t.mem = s.mem)) ∧
      (odd = false → ∃ t k, exec (.stevedorePush c b n) s = .next t ∧
        t.commands = Map.set s.commands s.stamp k ∧ k.op = 0xE ∧ k.append = some (x.queue, q.tail, a) ∧
        k.work = .load { desc := x.desc, origin := x.origin x.begun, rows := none, entry := a, esize := x.esize, padu := x.padu } ∧
        ((t.berth c b).regs.queue x.queue).tail = q.tail + 1 ∧ .engineGranuleCheck s.stamp ∈ t.agenda ∧ SameBytes s t ∧
        (own = true → ((t.cluster (clusterOf c)).block a).present = false ∧ k.lost = false) ∧
        (own = false → t.clusters = s.clusters ∧ k.lost = true))) ∧
    (∀ c b n x, (s.berth c b).sub? n = some x →
      let q := (s.berth c b).regs.queue x.queue
      x.stopped = true ∨ s.ending c b = true ∨ x.count ≤ x.begun ∨ x.landed < x.begun ∨
        q.cap ≤ (q.tail - s.freedHead c b x.queue).toNat → exec (.stevedorePush c b n) s = .next s) ∧
    (∀ c b n, (s.berth c b).sub? n = none → exec (.stevedorePush c b n) s = .next s) ∧
    (∀ c b a n, SameBytes s (s.readOver c b a n)) ∧
    (∀ id w, Map.get? s.writebacks id = some w → s.heldBack w = false →
      let u := s.readOver w.core w.berth w.addr w.esize
      let n := clusterOf w.core
      (w.esize ≠ 0 → w.accRow = none → u.shadow w.core w.berth = false →
        ∃ t, exec (.resultWriteback id) s = .next t ∧ t.writebacks = Map.erase u.writebacks id ∧ t.mem = u.mem ∧
          (t.cluster n).spad = (u.cluster n).spad.write (w.addr + w.first) w.count w.bytes ∧
          ((t.cluster n).block w.addr).present = (((u.cluster n).block w.addr).present || w.setsPresence) ∧
          ∀ m, m ≠ n → (t.cluster m).spad = (u.cluster m).spad) ∧
      (w.esize = 0 → w.accRow = none → exec (.resultWriteback id) s =
        .next (({ u with writebacks := Map.erase u.writebacks id } : State).mergeFlags w.core w.berth w.flags)) ∧
      (∀ half r j, w.esize = 0 → w.accRow = some (half, r) → r < 32 → j < 32 → half < 2 →
        ∃ t, exec (.resultWriteback id) s = .next t ∧ SameBytes s t ∧
          (t.core w.core).accElem half r j = .ofNat 32 (w.bytes / 2 ^ (32 * j))) ∧
      (w.esize ≠ 0 → w.accRow = none → u.shadow w.core w.berth = true → w.berth < 8 →
        ∃ t, exec (.resultWriteback id) s = .next t ∧ t.clusters = u.clusters ∧ t.mem = u.mem ∧
          ((t.berth w.core w.berth).diverged = false →
            (u.cluster n).spad.read (w.addr + w.first) w.count = w.bytes % 2 ^ (8 * w.count)))) ∧
    (∀ id w, Map.get? s.writebacks id = some w → s.heldBack w = true → exec (.resultWriteback id) s = .next s)

/-- A command's granules are checked, its data land and it completes or stops; a Stevedore pushes the next tile; a result reaches its entry. The order of granules (logs 10, 18) and what is held back (log 25) are the model's readings. -/
def Obligations.EngineRun : Prop :=
  Claims.EngineProgress ∧ Claims.PushesAndResults

/-! ## The M, E, U and V slots -/

/-- An operation of the V, M, E or U slot that runs changes no byte of memory or scratchpad, no scalar, predicate, handle or special
register of its berth but its queues, no buffer ring, no other berth, and of no other core but that of the other member of a pair, whose
follow-on takes up the command of a CPYM (R249). -/
def Obligations.SlotFrame : Prop :=
  ∀ (i : Instr) (o : OpSem) (k : SlotKind) (s : State), i.slotKind = some k → k ≠ .scalar → Machine.Instr.sem i = some o →
    o.runs i s = true →
    ∃ t, exec i s = .next t ∧ SameBytes s t ∧ { t.me.regs with q := s.me.regs.q } = s.me.regs ∧ t.me.status = s.me.status ∧
      (t.me.sup = s.me.sup ∧ t.me.ringcfg = s.me.ringcfg ∧ t.me.netsel = s.me.netsel ∧ t.me.lease = s.me.lease ∧
        t.me.task = s.me.task ∧ t.me.einfoUnread = s.me.einfoUnread) ∧
      (t.myCore.tvec = s.myCore.tvec ∧ t.myCore.cycle = s.myCore.cycle ∧ t.myCore.z = s.myCore.z ∧ t.myCore.d = s.myCore.d ∧
        t.leases = s.leases ∧ ∀ n r, (t.cluster n).ring r = (s.cluster n).ring r) ∧
      (∀ n ∈ specialIndexes, t.readSr s.iss.core s.iss.berth n = s.readSr s.iss.core s.iss.berth n) ∧
      (∀ b, b ≠ s.iss.berth → t.berth s.iss.core b = s.berth s.iss.core b) ∧
      ∀ c, c ≠ s.iss.core → { t.core c with half0 := (s.core c).half0, half1 := (s.core c).half1 } = s.core c ∧
        ((∀ f, i ≠ .cpym f) ∨ s.odd = true → t.core c = s.core c)

/-- A stage of the cascade: its lanes go to its bypass register, its comparison to the select latch, and its flags join those of the
chain; nothing else of the berth changes before VC, whose result is appended to the destination queue, or only merges its flags. -/
def Sys2Proof.Claims.StageEffect : Prop :=
  ∀ (s : State) (w : VSlot) (st : VStage) (f : StageIn → StageOut), s.iss.berth < 8 → w.usesAcc = false →
    let i := s.stageIn w st
    let r := f i
    let t := s.doStage w st f
    let fl := (if st = .va then 0 else s.iss.chainFlags) ||| (if feedsFused w st then 0 else r.flags)
    (st ≠ .vc → OnlyMe s t ∧
      t.me = { s.me.putStage st (ofLanes i.out r.lanes) with vsel := r.vsel.getD s.me.vsel } ∧
      t.iss.inA = ofLanes i.ty i.a ∧ t.iss.inB = ofLanes i.ty i.b ∧ t.iss.chainFlags = fl) ∧
    (st = .vc → w.dst.toNat < 4 →
      Appended s t w.dst.toNat (ofLanes i.out r.lanes).toNat onesSideband 1 fl ∧ t.me.yc = ofLanes i.out r.lanes) ∧
    (st = .vc → w.dst = 4 → t.writebacks = Map.set s.writebacks s.stamp (s.flagsOnly fl) ∧ t.me.yc = ofLanes i.out r.lanes)

/-- The integer stages, lane by lane, modulo 2^32; ICMP and ISEL; no flag is raised. -/
def Sys2Proof.Claims.IntegerStages : Prop :=
  ∀ (st : VStage) (w : VSlot) (s : State),
    let m := 2 ^ 32
    let sx (x : Nat) : Int := (x : Int).bmod m
    let low (z : Int) : Nat := (z % m).toNat
    let zip (g : Nat → Nat → Nat) (i : StageIn) : StageOut := ⟨List.zipWith g i.a i.b, 0, none⟩
    Stages s (.iadd st w) w st (zip fun x y => (x + y) % m) ∧
    Stages s (.isub st w) w st (zip fun x y => low (sx x - sx y)) ∧
    Stages s (.imul st w) w st (zip fun x y => x * y % m) ∧
    Stages s (.imulh st w) w st (zip fun x y => low (sx x * sx y / m)) ∧
    Stages s (.imin st w) w st (zip fun x y => low (min (sx x) (sx y))) ∧
    Stages s (.imax st w) w st (zip fun x y => low (max (sx x) (sx y))) ∧
    Stages s (.iminn st w) w st (zip fun x y => min (x % m) (y % m)) ∧
    Stages s (.imaxn st w) w st (zip fun x y => max (x % m) (y % m)) ∧
    Stages s (.iand st w) w st (zip fun x y => (x &&& y) % m) ∧
    Stages s (.ior st w) w st (zip fun x y => (x ||| y) % m) ∧
    Stages s (.ixor st w) w st (zip fun x y => (x ^^^ y) % m) ∧
    Stages s (.ishl st w) w st (zip fun x y => x * 2 ^ (y % 32) % m) ∧
    Stages s (.ishr st w) w st (zip fun x y => x % m / 2 ^ (y % 32)) ∧
    Stages s (.isar st w) w st (zip fun x y => low (sx x / 2 ^ (y % 32))) ∧
    Stages s (.icmp st w) w st (fun i => compared i.ty (List.zipWith (fun x y => (intCond 32 i.cond x y, 0)) i.a i.b)) ∧
    Stages s (.isel st w) w st (fun i =>
      ⟨(List.range i.a.length).map fun n => if i.vsel.getLsbD n then i.a.getD n 0 else i.b.getD n 0, 0, none⟩)

/-- The floating stages, lane by lane, with their flags: each in the format and the rounding mode of its stage. -/
def Sys2Proof.Claims.FloatStages : Prop :=
  ∀ (st : VStage) (w : VSlot) (s : State),
    let un (g : StageIn → Nat → Result) (i : StageIn) : StageOut := .of (mapLanes (g i) i.a)
    let bin (g : StageIn → Nat → Nat → Result) (i : StageIn) : StageOut := .of (zipLanes (g i) i.a i.b)
    let fused (g : StageIn → Nat → Nat → Nat → Result) (i : StageIn) : StageOut :=
      .of (collect (List.zipWith (fun (x : Nat × Nat) c => g i x.1 x.2 c) (i.prevA.zip i.prevB) i.b))
    Stages s (.fadd st w) w st (bin fun i => laneAdd i.fmt i.mode) ∧
    Stages s (.fsub st w) w st (bin fun i => laneSub i.fmt i.mode) ∧
    Stages s (.fmul st w) w st (bin fun i => laneMul i.fmt i.mode) ∧
    Stages s (.faddf st w) w st (fused fun i => laneAddf i.fmt i.mode) ∧
    Stages s (.fsubf st w) w st (fused fun i => laneSubf i.fmt i.mode) ∧
    Stages s (.fmin st w) w st (bin fun i => laneMinMax i.fmt false) ∧
    Stages s (.fmax st w) w st (bin fun i => laneMinMax i.fmt true) ∧
    Stages s (.fabs st w) w st (un fun i x => (x % 2 ^ (i.fmt.width - 1), 0)) ∧
    Stages s (.fneg st w) w st (un fun i => laneNeg i.fmt) ∧
    Stages s (.fcps st w) w st (bin fun i => laneCps i.fmt) ∧
    Stages s (.fcmp st w) w st (fun i => compared i.ty (List.zipWith (floatCond i.fmt i.cond) i.a i.b)) ∧
    Stages s (.fsel st w) w st (fun i =>
      ⟨(List.range i.a.length).map fun n => if i.vsel.getLsbD n then i.a.getD n 0 else i.b.getD n 0, 0, none⟩) ∧
    Stages s (.frnd st w) w st (un fun i => laneRnd i.fmt i.mode) ∧
    Stages s (.rcp st w) w st (un fun i => seedLane i.fmt rcp32) ∧
    Stages s (.rsq st w) w st (un fun i => seedLane i.fmt rsq32) ∧
    Stages s (.exp2 st w) w st (un fun i => seedLane i.fmt exp232) ∧
    Stages s (.log2 st w) w st (un fun i => seedLane i.fmt log232) ∧
    Stages s (.cvt st w) w st (fun i =>
      .of (mapLanes (laneCvt i.fmt (laneFloat i.out) (if i.out = 0 then .rn else i.mode)) (i.a.take 32))) ∧
    Stages s (.cvti st w) w st (un fun i => laneCvti i.mode) ∧
    Stages s (.cvtf st w) w st (un fun i => laneCvtf (laneFloat i.out) i.mode)

/-- The stages that move or reduce lanes: PASS, BCAST, PERM and LROT move them bit for bit and raise no flag; RSUM, RMAX and RMIN leave
their reduction in lane 0 and zeros elsewhere; AMAX leaves the greatest magnitude in every lane. -/
def Sys2Proof.Claims.LaneStages : Prop :=
  ∀ (st : VStage) (w : VSlot) (s : State),
    let lane (l : List Nat) (n : Nat) : Nat := l.getD n 0
    let move (j : StageIn → Nat → Nat) (i : StageIn) : StageOut :=
      ⟨(List.range i.a.length).map fun n => lane i.a (j i n), 0, none⟩
    let red (g : StageIn → Nat → Nat → Result) (i : StageIn) : StageOut := .of (reduced (g i) i.a)
    Stages s (.pass_ st w) w st (move fun _ n => n) ∧
    Stages s (.bcast st w) w st (move fun i _ => lane i.b 0 % i.a.length) ∧
    Stages s (.perm st w) w st (move fun i n => lane i.b n % i.a.length) ∧
    Stages s (.lrot st w) w st (move fun i n => (n + lane i.b 0) % i.a.length) ∧
    Stages s (.rsum st w) w st (red fun i => if i.ty = 3 then laneInt 0x18 else laneAdd i.fmt i.mode) ∧
    Stages s (.rmax st w) w st (red fun i => if i.ty = 3 then laneInt 0x1D else laneMinMax i.fmt true) ∧
    Stages s (.rmin st w) w st (red fun i => if i.ty = 3 then laneInt 0x1C else laneMinMax i.fmt false) ∧
    Stages s (.amax st w) w st (fun i => .of (lanesAmax i.fmt i.a))

/-- What a stage writes of the bypass registers, the select latch, the flags and its destination, and what each V-stage operation computes, lane by lane, with the flags it raises. -/
def Obligations.VectorStages : Prop :=
  Claims.StageEffect ∧ Claims.IntegerStages ∧ Claims.FloatStages ∧ Claims.LaneStages

/-- The pack unit: what UNPK, PACK, PSCL, SPMX and SPEX append. -/
def Sys2Proof.Claims.PackAppends : Prop :=
  ∀ s : State, s.iss.berth < 8 →
    (∀ f : UP, Does s (.unpk f) [entry7 f.s] (fun u => u.unpkAppend f) ∧ Does s (.pack f) (packSources f) (fun u => u.packAppend f)) ∧
    (∀ f : UP, f.m ≠ 3 → f.m ≠ 6 →
      Appends s (.pack f) f.d.toNat (s.packedElems f).1 (setBits onesSideband 0 32 (s.packScale f)) 1 (s.packedElems f).2) ∧
    (∀ f : UPscl,
      let r := psclScale f.m.toNat (elemValue (wideCode f.w.toNat) (s.entryBytes (entry7 f.s) % 2 ^ laneWidth f.w.toNat))
      Appends s (.pscl f) f.d.toNat (packElems 32 (List.replicate 32 r.1)) onesSideband 1 r.2) ∧
    (∀ f : USp, Does s (.spmx f) [entry7 f.s] (fun u => u.spmxAppend f) ∧
      let e := entry7 f.s
      let l := (List.range 128).map fun k => spexElem (ncodeN f.c.toNat) (s.entryBytes e) k
      Appends s (.spex f) f.d.toNat (packElems 8 (l.map Prod.fst)) (setBits onesSideband 0 32 (s.entryScale e 0)) 1
        (flagIf (l.any Prod.snd) flagInvalid))

/-- The matrix engine: what each M-slot operation queues at its half-array, its operands bound as they are at issue. -/
def Sys2Proof.Claims.MatrixIssue : Prop :=
  ∀ s : State, s.iss.berth < 8 →
    let binds (f : MF) (kind : Nat) (x : MatrixOp) : Prop :=
      x.kind = kind ∧ x.berth = s.iss.berth ∧ x.zero = (f.z == 1) ∧ x.a = s.entryBytes (entry8 f.a) ∧
      x.scaleA = s.entrySideband (entry8 f.a) ∧ x.fmtA = (s.queueDesc (entry8 f.a).queue).fmt ∧ x.addrA = none ∧ x.addrB = none
    let whole (f : MF) (x : MatrixOp) : Prop := x.groups = [(32, s.entryBytes (entry8 f.b), s.entrySideband (entry8 f.b))]
    (∀ f : MF, Queues s (.mma f) f.h (fun x => binds f 0 x ∧ whole f x) ∧ Queues s (.mmas f) f.h (fun x => binds f 1 x ∧ whole f x) ∧
      Queues s (.mmag f) f.h (fun x => binds f 2 x ∧
        x.groups = (s.groups f.b).map fun g => (g.1, s.entryBytes g.2, s.entrySideband g.2))) ∧
    (∀ f : FAccr, Queues s (.accr f) f.h (fun x => x.kind = 3 ∧ x.first = f.f.toNat ∧ x.mode = f.r.toNat ∧
      x.fmtA = (s.queueDesc f.d.toNat).fmt ∧ x.rows = (s.srcQ f.d.toNat).esize / (4 * (s.queueDesc f.d.toNat).width) ∧
      ∃ w, x.dest = some w)) ∧
    (∀ f : FAccw, Queues s (.accw f) f.h (fun x => x.kind = 4 ∧ x.a = s.entryBytes (entry8 f.a) ∧ x.first = f.f.toNat ∧
      x.rows = (s.srcQ (entry8 f.a).queue).esize / 128)) ∧
    (∀ f : FAccz, Queues s (.accz f) f.h (fun x => x.kind = 5)) ∧
    (∀ f : FMtrn, Queues s (.mtrn f) f.h (fun x => x.kind = 6 ∧ ∃ w, x.dest = some w ∧
      let d := s.queueDesc (entry8 f.a).queue
      w.bytes = transposed d.width d.rows d.cols (s.entryBytes (entry8 f.a))))

/-- A half-array completes the operation at its head, unless that waits for bytes of a CPYM: ACCZ makes every element zero, ACCW writes the
rows of its entry, and a product leaves each element as its promotion gives it. -/
def Sys2Proof.Claims.MatrixPromotion : Prop :=
  ∀ (s : State) (c half : Nat) (n : Int), half < 2 →
    ((s.core c).halfQ half = [] → exec (.matrixPromotion c half n) s = .next s) ∧
    (∀ o l, (s.core c).halfQ half = o :: l →
      (o.addrA.isSome = true ∨ o.addrB.isSome = true → exec (.matrixPromotion c half n) s = .next s) ∧
      (o.addrA = none → o.addrB = none → ∃ t, exec (.matrixPromotion c half n) s = .next t ∧ SameBytes s t ∧
        (t.core c).halfQ half = l ∧
        (o.kind = 5 → ∀ r j, r < 32 → j < 32 → (t.core c).accElem half r j = 0) ∧
        (o.kind = 4 → ∀ r j, o.first ≤ r → r < o.first + o.rows → o.first + o.rows ≤ 32 → j < 32 →
          (t.core c).accElem half r j = .ofNat 32 (o.a / 2 ^ (1024 * (r - o.first) + 32 * j))) ∧
        (o.kind ≤ 2 → ∀ r j, r < 32 → j < 32 → (t.core c).accElem half r j =
          .ofNat 32 (o.element n r j ((s.core c).accElem half r j).toNat).1)))

/-- The E-slot commands: what each records, and the source entries that it is to read. STQ, SCAT, RETS and XST read theirs after their release;
ACCH and COLL read theirs as they issue, for COLL the model's reading (log 21). The follow-on of a CPYM is checked and bound at issue, its
place among the checks the model's (log 23). -/
def Obligations.EngineCommands : Prop :=
  ∀ s : State, s.iss.berth < 8 →
    (∀ f : ECpy, Commands s (.cpy f) 1 3 (.copy (s.copyNest f false)) (s.syncWord f.w) true [] ∧
      Commands s (.cpyt f) 2 3 (.copy (s.copyNest f true)) (s.syncWord f.w) true []) ∧
    (∀ f : EApp, let x := s.liveQ f.q.toNat
      let load := Work.load (s.tileJob f.b.toNat f.q.toNat none f.u (x.slotAddr x.tail))
      Commands s (.ldq f) 4 3 load (s.syncWord f.w) false [] ∧
      ∀ o, Machine.Instr.sem (.cpym f) = some o → o.runs (.cpym f) s = true → ∃ t k half p, exec (.cpym f) s = .next t ∧
        t.me.segE = s.me.segE ++ [k] ∧ k.op = 3 ∧ k.work = load ∧ SameBytes s t ∧
        let append := (f.q.toNat, x.tail, x.slotAddr x.tail)
        let queued : Prop := t.myCore.halfQ half = s.myCore.halfQ half ++ [p]
        (s.odd = false → (∀ d e, s.me.task.bind Task.partner = some (d, e) → d ≠ s.iss.core) →
          queued ∧ t.commands = Map.set s.commands s.stamp k ∧ k.held = false ∧ p.after = some s.stamp ∧
          t.agenda = s.agenda ++ [.engineGranuleCheck s.stamp, .matrixPromotion s.iss.core half 0]) ∧
        (s.odd = true → t.commands = s.commands ∧
          (∀ id, s.twinCommand append = some id → queued ∧ p.after = some id ∧
            t.agenda = s.agenda ++ [.matrixPromotion s.iss.core half 0]) ∧
          (s.twinCommand append = none → s.twin.issued ≤ s.me.issued ∨ (s.myCluster.block append.2.2).present = true →
            queued ∧ p.after = none ∧ t.agenda = s.agenda ++ [.matrixPromotion s.iss.core half 0]) ∧
          (s.twinCommand append = none → s.me.issued < s.twin.issued → (s.myCluster.block append.2.2).present = false →
            t.myCore.halfQ half = s.myCore.halfQ half ∧ t.agenda = s.agenda))) ∧
    (∀ f : ESrc, let e := entry7 f.o
      let d := s.scatData f.b.toNat
      let x := s.liveQ (s.zBits f.b.toNat 8 2)
      Commands s (.stq f) 5 3 (.store (s.tileJob f.b.toNat e.queue none f.u 0) 0 0) (s.syncWord f.w) true [s.source e] ∧
      Commands s (.gath f) 6 3 (.load (s.tileJob f.b.toNat (s.zBits f.b.toNat 8 2) (some (s.indexRows e)) f.u (x.slotAddr x.tail)))
        (s.syncWord f.w) false [] ∧
      Commands s (.scat f) 7 3 (.store (s.tileJob f.b.toNat d.queue (some []) f.u 0) 0 0)
        (s.syncWord f.w) true [s.source d, s.source e]) ∧
    (∀ f : EZ, let lines := Work.lines (s.zBits f.b.toNat 0 56) (s.zBits (f.b.toNat + 1) 0 32)
      (∀ o, Machine.Instr.sem (.pref f) = some o → o.runs (.pref f) s = true → ∃ t k, exec (.pref f) s = .next t ∧
        t.commands = Map.set s.commands s.stamp k ∧ k.op = 8 ∧ k.path = 3 ∧ k.work = lines ∧ k.held = false ∧ SameBytes s t ∧
        t.agenda = s.agenda ++ [.engineGranuleCheck s.stamp]) ∧
      Commands s (.pin f) 9 3 lines none true [] ∧ Commands s (.unpn f) 10 3 lines none true []) ∧
    (∀ f : EAcch, let a := acchAddends (s.tileDesc f.b.toNat) (s.entryBytes (entry7 f.o))
      Commands s (.acch f) 0xB 5 (.acch (s.zBits (f.b.toNat + 1) 0 56) a.1 a.2.1 s.iss.start.quota.toNat) none true []) ∧
    (∀ f : EFlushr, Commands s (.flushr f) 0xC 5 .flushr none true []) ∧
    (∀ f : EXst, let b := f.b.toNat
      let e := entry7 f.o
      let n := if s.zBits (b + 1) 0 17 = 0 then (s.srcQ e.queue).esize else s.zBits (b + 1) 0 17
      Commands s (.xst f) 0xD 6 (.xst 0 0 n (s.zBits b 0 11) (s.zBits b 15 4)
        (s.zBits b 19 17) (s.zBits (b + 1) 17 5) (s.zBits (b + 1) 22 5)) (s.syncWord f.w) true [s.source e] ∧
      Commands s (.coll f) 0x10 7 (.coll (s.collJob b e)) (s.syncWord f.w) true [] ∧
      ∀ x, s.me.sub? (s.zBits b 0 4) = some x →
        Commands s (.rets f) 0xF 4 (.store { desc := x.desc, origin := x.origin (s.retsNumber (s.zBits b 0 4) x), rows := none,
                                             entry := 0, esize := x.esize, padu := false } 0 0)
          (s.syncWord f.w) true [s.source e]) ∧
    (∀ (f : EApp) (o : OpSem), Machine.Instr.sem (.subs f) = some o → o.runs (.subs f) s = true →
      let n := s.zBits f.b.toNat 8 4
      (s.subRepeats f = none → ∃ t, exec (.subs f) s = .next t ∧ t.me.subs = (s.me.addSub n s.stamp (s.newSub f)).subs ∧
        t.me.sub? n = some (s.newSub f) ∧
        (t.me.regs.queue f.q.toNat).subscribed = true ∧
        t.agenda = s.agenda ++ [.stevedorePush s.iss.core s.iss.berth n] ∧ SameBytes s t) ∧
      (∀ m, s.subRepeats f = some m → Becomes s (exec (.subs f) s) { s.me with
        subs := s.me.subs.map fun e => if e.1 = m then (m, { e.2 with rewound := false }) else e }))

/-! ## Completion -/

/-- The operations of the M, E and U slots and the rows of the engines complete: each of them answers a next state with its own effect, in
every state in which it runs. An M operation takes the next place of its half-array, an E operation records its command (SUBS its
subscription), a U operation sends its result; a granule check that passes makes its data due, data land, a command whose transfers are
made ends, a Stevedore pushes, a result reaches its entry, and a half-array completes its head. -/
def Obligations.Completion : Prop :=
  ∀ s : State,
    let done (i : Instr) (p : State → Prop) : Prop :=
      ∀ o, Machine.Instr.sem i = some o → s.iss.berth < 8 → o.runs i s = true → ∃ t, exec i s = .next t ∧ p t
    let queued (h : BitVec 2) (n : Nat) (t : State) : Prop :=
      ∃ x, t.myCore.halfQ (s.halfOf h) = s.myCore.halfQ (s.halfOf h) ++ [x] ∧ x.kind = n
    let ordered (n : Nat) (t : State) : Prop := ∃ k, t.me.segE = s.me.segE ++ [k] ∧ k.op = n
    let sent (t : State) : Prop := ∃ w, Map.get? t.writebacks s.stamp = some w ∧ w.core = s.iss.core ∧ w.berth = s.iss.berth
    (∀ f, done (.mma f) (queued f.h 0) ∧ done (.mmas f) (queued f.h 1) ∧ done (.mmag f) (queued f.h 2)) ∧
    (∀ f, done (.accr f) (queued f.h 3)) ∧ (∀ f, done (.accw f) (queued f.h 4)) ∧ (∀ f, done (.accz f) (queued f.h 5)) ∧
    (∀ f, done (.mtrn f) (queued f.h 6)) ∧
    (∀ f, done (.cpy f) (ordered 1) ∧ done (.cpyt f) (ordered 2)) ∧
    (∀ f, done (.cpym f) (ordered 3) ∧ done (.ldq f) (ordered 4) ∧
      done (.subs f) fun t => (Map.get? t.me.subs (s.zBits f.b.toNat 8 4)).isSome) ∧
    (∀ f, done (.stq f) (ordered 5) ∧ done (.gath f) (ordered 6) ∧ done (.scat f) (ordered 7)) ∧
    (∀ f, done (.pref f) (fun t => ∃ k, Map.get? t.commands s.stamp = some k ∧ k.op = 8) ∧ done (.pin f) (ordered 9) ∧
      done (.unpn f) (ordered 10)) ∧
    (∀ f, done (.acch f) (ordered 0xB)) ∧ (∀ f, done (.flushr f) (ordered 0xC)) ∧
    (∀ f, done (.xst f) (ordered 0xD) ∧ done (.rets f) (ordered 0xF) ∧ done (.coll f) (ordered 0x10)) ∧
    (∀ f, done (.unpk f) sent ∧ done (.pack f) sent) ∧ (∀ f, done (.pscl f) sent) ∧
    (∀ f, done (.spmx f) sent ∧ done (.spex f) sent) ∧
    (∀ id k gens begun, Map.get? s.commands id = some k → k.held = false → k.suspended = false → k.checked = false →
      ¬ (k.sent = true ∧ k.isAcch = true) → k.unread = [] → s.run k ≠ [] → s.mustFollow id k (s.run k) = false → s.fifoReady k (s.run k) = true →
      s.slotHeld k = false → s.granules k (s.run k) = .ok gens begun → ∃ t, exec (.engineGranuleCheck id) s = .next t ∧
        Map.get? t.commands id = some { k with checked := true, gens := gens, begun := begun } ∧ .engineDataLand id ∈ t.agenda) ∧
    (∀ id k, Map.get? s.commands id = some k → k.checked = true → s.mustQueue k (s.run k) = false →
      (∀ n ∈ s.runTargets k (s.run k), s.moving (256 * n) = false) →
      s.closedSlice k.source (s.runTargets k (s.run k)) = none → ∃ t y, exec (.engineDataLand id) s = .next t ∧
        Map.get? t.commands id = some y ∧ y.checked = false ∧
        (k.isAcch = true → y.sent = true) ∧ (k.isAcch = false → y.done = k.done + (s.run k).length)) ∧
    (∀ id k, Map.get? s.commands id = some k → s.allPerformed k = true → ∃ t, exec (.engineCommandComplete id) s = .next t ∧
      Map.get? t.commands id = none) ∧
    (∀ c b n x, b < 8 → (s.berth c b).sub? n = some x → x.stopped = false → x.begun < x.count → x.begun ≤ x.landed →
      x.queue < 4 → s.ending c b = false → (s.berth c b).red = false →
      let q := (s.berth c b).regs.queue x.queue
      (q.tail - s.freedHead c b x.queue).toNat < q.cap → ∃ t, exec (.stevedorePush c b n) s = .next t ∧
        ((t.berth c b).regs.queue x.queue).tail = q.tail + 1) ∧
    (∀ id w, Map.get? s.writebacks id = some w → s.heldBack w = false → ∃ t, exec (.resultWriteback id) s = .next t ∧
      Map.get? t.writebacks id = none) ∧
    (∀ c half n o l, half < 2 → (s.core c).halfQ half = o :: l → o.addrA = none → o.addrB = none →
      ∃ t, exec (.matrixPromotion c half n) s = .next t ∧ (t.core c).halfQ half = l)

/-! ## Reset and numbering -/

/-- What reset leaves: every berth FREE, SR.CYCLE, SR.TVEC and the model's own count of the device's cycles 0; every bank in scratchpad mode, owned by no launch, with zeros and no
presence bit; the CTRL registers as R279 gives them, and no launch admitted. The die of quay 12y + x is x div 6 + 2 (y div 4). -/
def Obligations.ResetValues : Prop :=
  let s := State.reset
  (∀ c b, b < 8 → (s.berth c b).status = .free) ∧
  s.now = 0 ∧ (∀ c, (s.core c).cycle = 0 ∧ (s.core c).tvec = 0) ∧
  (∀ c n, n < 32 → ((s.cluster c).bank n).mode = .scratchpad ∧ ((s.cluster c).bank n).owner = none) ∧
  (∀ c a, (s.cluster c).spad.byte a = 0 ∧ ((s.cluster c).block a).present = false) ∧
  s.ctrlRead 0x000 = 0x0000000156470009 ∧ s.ctrlRead 0x128 = 24 ∧ s.ctrlRead 0x170 = 3400 ∧
  (∀ off, off % 8 = 0 → off ∉ [0x000, 0x128, 0x170, 0x178, 0x180] → s.ctrlRead off = 0) ∧
  (∀ n, s.launch n = none) ∧ s.off = false ∧ s.canonical ∧
  (∀ x y, x < 12 → y < 8 → dieOf (12 * y + x) = x / 6 + 2 * (y / 4)) ∧
  (∀ cl l, l < 16 → clusterOf (16 * cl + l) = cl)

/-! ## What a bundle meets at issue -/

/-- The fetch and the decoding of a berth's bundle, and the traps of a bundle that is none (R47, R264, R272, R289): a word of another launch,
a reserved bit of the header, a bit in an empty slot, and a slot that is no operation, the first of them in slot order, with its opcode and,
of a V slot, its stage (log 7). -/
def Sys2Proof.Claims.BundleFaults : Prop :=
  (∀ (s : State) (c b : Nat) (m : ImemCell), Map.get? (s.core c).imem (s.berth c b).regs.pc.toNat = some m →
    (m.owner ≠ some (s.berth c b).slot → s.fetchBundle c b = .error ⟨0x01, 0, 0, 2 * 2 ^ 60⟩) ∧
    (m.owner = some (s.berth c b).slot →
      (decodeBundle m.word = .error .header → s.fetchBundle c b = .error ⟨0x01, 0, 0, 0⟩) ∧
      (∀ n, decodeBundle m.word = .error (.emptySlot n) → s.fetchBundle c b = .error ⟨0x01, 0, 0, 2 ^ 60 + n⟩) ∧
      ∀ n op st, decodeBundle m.word = .error (.opcode n op st) → s.fetchBundle c b = .error ⟨0x02, n, 0, op + st * 2 ^ 8⟩)) ∧
  slotPlaces = [⟨1, .scalar, 32, 13⟩, ⟨2, .scalar, 64, 14⟩, ⟨3, .vector, 96, 15⟩, ⟨4, .matrix, 160, 16⟩, ⟨5, .engine, 192, 17⟩,
    ⟨6, .pack, 224, 18⟩] ∧
  ∀ w : Nat,
    let word (p : SlotPlace) : Nat := w / 2 ^ p.lo % 2 ^ p.kind.width
    let valid (p : SlotPlace) : Prop := w / 2 ^ p.sv % 2 = 1
    let reserved : Prop := w / 2 ^ 23 % 2 ^ 9 ≠ 0
    let filled (p : SlotPlace) : Prop := ¬ valid p ∧ word p ≠ 0
    let opcode (p : SlotPlace) : Nat × Nat := match p.kind with
      | .vector =>
        let x := VSlot.read (word p)
        let st : VStage := if 2 ^ 62 ≤ word p then .va else x.badStage
        (x.op st, if st = .va then 0 else if st = .vb then 1 else 2)
      | k => (k.opcode (word p), 0)
    let wrong (p : SlotPlace) : Prop := valid p ∧ (decodeSlot p.kind (word p) = none ∨ ∃ l, decodeSlot p.kind (word p) = some l ∧
      ((p.num = 1 ∧ ∃ i ∈ l, s1Only i = true) ∨ (w / 2 ^ 12 % 2 = 1 ∧ ∃ i ∈ l, loopOp i = true)))
    (reserved → decodeBundle w = .error .header) ∧
    (∀ p ∈ slotPlaces, ¬ reserved → filled p → (∀ q ∈ slotPlaces, q.num < p.num → ¬ filled q) →
      decodeBundle w = .error (.emptySlot p.num)) ∧
    (∀ p ∈ slotPlaces, ¬ reserved → (∀ q ∈ slotPlaces, ¬ filled q) → wrong p → (∀ q ∈ slotPlaces, q.num < p.num → ¬ wrong q) →
      decodeBundle w = .error (.opcode p.num (opcode p).1 (opcode p).2)) ∧
    (¬ reserved → (∀ p ∈ slotPlaces, ¬ filled p ∧ ¬ wrong p) → ∃ x, decodeBundle w = .ok x)

/-- A READY or STALLED berth of no pair considered at a bundle boundary, whose partners do not rewind: a due PBOUND and a trap of the fetch
are taken; an open segment commits before an entry, which awaits every result outstanding (R242, R301); the checks come in the order of R264
and then the conditions of R91, and the first that fails is the one that counts, those before it staying passed: a trap is taken (its
segment's commit comes first, TrapWaits), and a wait leaves the berth STALLED, a page fault waiting with its handle, a rollback error raised,
a ring's line joined or a request sent, and no register, memory or scratchpad byte changed. Where none fails the berth is READY. -/
def Sys2Proof.Claims.Decision : Prop :=
  ∀ (s : State) (c b : Nat), b < 8 →
    let x := s.berth c b
    (x.status = .ready ∨ x.status = .stalled) → x.error = none → x.closing = false → x.deferred = none → x.awaiting = none →
    x.revoking = none → x.task.bind Task.partner = none → x.park = none → x.rewinders = [] →
    let at_ (h : Header) : State := (s.onBerth c b fun y => { y with waiting := none }).openIssue c b h
    (x.pboundDue = true → x.sup = false →
      s.consider c b = (at_ (Header.read 0)).takeTrap ⟨0x07, 0, 0, x.regs.count.toNat⟩) ∧
    (x.pboundDue = false ∨ x.sup = true → ∀ t, s.fetchBundle c b = .error t → s.consider c b = (at_ (Header.read 0)).takeTrap t) ∧
    (x.pboundDue = false ∨ x.sup = true → ∀ y, s.fetchBundle c b = .ok y →
      let u := at_ y.hdr
      let ops := u.active y
      let entry := u.isEntry y ops
      let v := s.consider c b
      (x.sinceIssue < y.hdr.stall + 1 → v = u.stall) ∧
      (y.hdr.stall < x.sinceIssue → entry = true → x.ckpt.isSome = true →
        v = (u.stall.onMe fun z => { z with closing := true }).later (.segmentCommit c b)) ∧
      (y.hdr.stall < x.sinceIssue → (entry = true → x.ckpt = none) → entry = true ∨ x.ckpt = none → x.outstanding ≠ [] → v = u.stall) ∧
      (y.hdr.stall < x.sinceIssue → (entry = true → x.ckpt = none) → (entry = true ∨ x.ckpt = none → x.outstanding = []) →
        let l := u.bundleChecks y ops
        let before (n : Nat) : Prop := ∀ i, i < n → ∀ w, l[i]? = some w → w.stays (decide (i < x.passed)) = true
        let first (n : Nat) (w : Verdict) : Prop := l[n]? = some w ∧ w.stays (decide (n < x.passed)) = false ∧ before n
        let waits : Prop := v.me.status = .stalled ∧ v.me.regs = x.regs ∧ v.me.held = x.held ∧ v.me.ckpt = x.ckpt ∧ SameBytes s v
        (before l.length → v = u.onMe fun z => { z with status := .ready, awaits := none, waitsOn := [], waiting := none }) ∧
        (∀ n t, first n (.trap t) → v = u.takeTrap t) ∧
        (∀ n, first n .wait → waits ∧ v.me.passed = max x.passed n) ∧
        (∀ n h k t, first n (.park h k t) → waits ∧ v.me.park = some (.pageFault h k t) ∧
          v.agenda = s.agenda ++ [.pageFaultPark c b h]) ∧
        (∀ n t, first n (.poison t) → v.me.status = .stalled ∧ v.me.error = some ⟨t, false⟩ ∧ v.me.regs.g = x.regs.g ∧
          v.me.ckpt.isSome = true ∧ SameBytes s v) ∧
        (∀ n r k, first n (.line r k) → waits ∧ v.me.passed = max x.passed n) ∧
        (∀ n k m p, first n (.ask k m p) → v.me.status = .stalled ∧ SameBytes s v ∧ v.me.passed = max x.passed n ∧
          (v.me.asked.any fun a => a.slot == k) = true) ∧
        l = [await (!u.interlocked y ops), u.privCheck ops, u.stallCheck ops] ++ u.slotChecks false ops ++ [u.lendCheck ops] ++
          u.popped.map u.popCheck ++
          ops.map (fun k => (u.atSlot k.slot).issueReady (k.sem.sources (u.atSlot k.slot)) []) ++
          [u.issueReady [] (u.allAppends ops), await (u.popped.all u.headPresent)]))

/-- What the checks of a bundle are: the QUNDER of a queue source and of a pop, with its queue and its offset (R90, R93, R97, R99); the wait
of one that another berth or a Stevedore is still to append; the operations of the M, U and V slots whose source stands beyond the
occupancy; and the LOOP_DEPTH of LEND (R380). -/
def Sys2Proof.Claims.QueueChecks : Prop :=
  ∀ s : State,
    let q (n : Nat) : Queue := s.srcQ n
    let fills (n : Nat) : Bool := (q n).splice == .fed || s.pushesRemain n
    let off (e : Machine.Entry) : Nat := e.offset * 4 + e.queue
    let beyond (e : Machine.Entry) : Prop := (q e.queue).readable = true ∧ (q e.queue).occ ≤ e.offset ∧ fills e.queue = false
    (∀ n, (q n).readable = true ↔ (q n).splice = .localQ ∨ (q n).splice = .openQ ∨ (q n).splice = .fed) ∧
    (∀ n, (q n).occ = ((q n).tail.toNat + 2 ^ 16 - (q n).head.toNat) % 2 ^ 16) ∧
    (∀ e, ((q e.queue).readable = false → s.distance e = .trap (s.trap 0x04 (2 ^ 9 + off e))) ∧
      ((q e.queue).readable = true → e.offset < (q e.queue).occ → s.distance e = s.bankCheck (s.entryAddr e) (q e.queue).esize) ∧
      ((q e.queue).readable = true → (q e.queue).occ ≤ e.offset → fills e.queue = true → s.distance e = .wait) ∧
      (beyond e → s.distance e = .trap (s.trap 0x04 (off e)))) ∧
    (∀ n, ((q n).readable = false → s.popCheck n = .trap (s.trap 0x04 (2 ^ 9 + 2 ^ 8 + n))) ∧
      ((q n).readable = true → (q n).occ ≠ 0 → s.popCheck n = .pass) ∧
      ((q n).readable = true → (q n).occ = 0 → fills n = true → s.popCheck n = .wait) ∧
      ((q n).readable = true → (q n).occ = 0 → fills n = false → s.popCheck n = .trap (s.trap 0x04 (2 ^ 8 + n)))) ∧
    (∀ f : MF, f.h ≠ 3 → s.predIs f.p f.n = true → beyond (entry8 f.a) →
      let u := s.inSlot (some .matrix)
      exec (.mma f) s = .next (u.takeTrap (u.trap 0x04 (off (entry8 f.a))))) ∧
    (∀ f : UP, f.wf = true → s.predIs f.p f.n = true → (q (entry7 f.s).queue).esize = 128 → beyond (entry7 f.s) →
      let u := s.inSlot (some .pack)
      exec (.unpk f) s = .next (u.takeTrap (u.trap 0x04 (off (entry7 f.s))))) ∧
    (∀ (st : VStage) (w : VSlot) (o : Nat) (l : List Nat), (Instr.fadd st w).wellFormed = true → s.predIs w.p w.n = true → stageOperands w st = o :: l → o < 0x80 →
      (q (o / 32)).esize = 128 → beyond ⟨o / 32, o % 32⟩ →
      let u := s.inSlot (some .vector)
      exec (.fadd st w) s = .next (u.takeTrap (u.trap 0x04 (o % 32 * 4 + o / 32)))) ∧
    (∀ ops, s.loops ops = true →
      (∀ e l, s.iss.start.loops = e :: l → e.stop = s.iss.start.pc → s.lendCheck ops = .pass) ∧
      (∀ e l, s.iss.start.loops = e :: l → e.stop ≠ s.iss.start.pc →
        s.lendCheck ops = .trap (s.trap 0x1A s.iss.start.loops.length)) ∧
      (s.iss.start.loops = [] → s.lendCheck ops = .trap (s.trap 0x1A 0))) ∧
    ∀ ops, s.loops ops = false → s.lendCheck ops = .pass

/-- A bundle that is none, or of another launch, traps with the code of its first fault (which stage is named is log 7); a bundle that is one is checked in order and the first check that fails counts: a trap is taken, a wait, a page fault and a rollback error leave its berth STALLED with nothing of the bundle performed; and the checks of queue operands, pops and LEND. -/
def Obligations.IssueDecision : Prop :=
  Claims.BundleFaults ∧ Claims.Decision ∧ Claims.QueueChecks

/-! ## Numbers -/

/-- The floating arithmetic of a lane, in f32, bf16 and f16: a sum, a difference, a product, and the fused product and sum, each of the exact
values rounded once, with its flags; what a NaN, an infinity, an overflow and a zero result give; the canonical NaNs and the largest
magnitudes of the formats (R117, R121, R124, R358, R359). -/
def Sys2Proof.Claims.FloatArithmetic : Prop :=
  (f32.top = (2 - 2 ^ (-23 : ℤ)) * 2 ^ 127 ∧ bf16.top = (2 - 2 ^ (-7 : ℤ)) * 2 ^ 127 ∧ f16.top = 65504 ∧ f8e4.top = 448 ∧
    f8e5.top = 57344 ∧ f6.top = 28 ∧ f4.top = 6) ∧
  (f32.canonicalNaN = 0x7FC00000 ∧ bf16.canonicalNaN = 0x7FC0 ∧ f16.canonicalNaN = 0x7E00 ∧ f8e5.canonicalNaN = 0x7E ∧
    f8e4.canonicalNaN = 0x7F) ∧
  ∀ (f : FloatFmt) (mode : Rnd) (a b c : Nat), f = f32 ∨ f = bf16 ∨ f = f16 →
    let x := f.value a
    let y := f.value b
    let z := f.value c
    (∀ n, f.value (f.infinity n) = .inf n ∧ f.value (f.zero n) = .num n 0 (1 - f.bias - f.mbits) ∧
      (f.value (f.largest n)).IsNum (if n then -f.top else f.top) n) ∧
    f.IsSum mode x y (laneAdd f mode a b) ∧ f.IsSum mode x y.negate (laneSub f mode a b) ∧
    f.IsProduct mode x y (laneMul f mode a b) ∧
    f.IsFused mode x y z (laneAddf f mode a b c) ∧ f.IsFused mode x y z.negate (laneSubf f mode a b c)

/-- The conversions: of any floating format to any other, of f32 to s32, of s32 to a floating format, each rounded once and saturated, and
FRND, which leaves an integral value as it is and keeps the sign of a zero (R125, R126, R345, R365). -/
def Sys2Proof.Claims.FloatConversions : Prop :=
  ∀ (mode : Rnd) (a : Nat),
    (∀ f ∈ [f32, bf16, f16, f8e4, f8e5, f6, f4], ∀ g ∈ [f32, bf16, f16, f8e4, f8e5, f6, f4],
      g.IsConverted mode (f.value a) (laneCvt f g mode a)) ∧
    (let r := laneCvti mode a
     r.1 < 2 ^ 32 ∧ IsInteger (-2 ^ 31) (2 ^ 31 - 1) mode (f32.value a) ((r.1 : Int).bmod (2 ^ 32)) r.2) ∧
    (∀ f ∈ [f32, bf16, f16],
      let n : Int := (a : Int).bmod (2 ^ 32)
      let neg : Bool := decide (n < 0)
      (n = 0 → laneCvtf f mode a = (0, 0)) ∧ (n ≠ 0 → f.Rounds mode (f.saturated neg) n neg (laneCvtf f mode a))) ∧
    ∀ f ∈ [f32, bf16, f16],
      let v := f.value a
      let y := roundUnits mode 1 v.rat
      let r := laneRnd f mode a
      (v.isNan = true → r = (f.canonicalNaN, flagIf v.isSignalling flagInvalid)) ∧ (v.infinite = true → r = (a, 0)) ∧
      (v.finite = true → y = v.rat → r = (a, 0)) ∧
      (v.finite = true → y ≠ v.rat → (f.value r.1).IsNum y v.neg ∧ r.2 = flagInexact)

/-- Comparisons: FMIN and FMAX take the lesser or the greater operand, −0 below +0, and a number rather than a NaN; FCMP compares numbers,
and which conditions a NaN makes true and which raise INVALID (R360, R364). -/
def Sys2Proof.Claims.FloatComparisons : Prop :=
  ∀ (f : FloatFmt) (a b : Nat), f = f32 ∨ f = bf16 ∨ f = f16 →
    let x := f.value a
    let y := f.value b
    let less (x y : FVal) : Prop :=
      (x = .inf true ∧ y ≠ .inf true) ∨ (y = .inf false ∧ x ≠ .inf false) ∨ (x.finite = true ∧ y.finite = true ∧ x.rat < y.rat)
    let under (x y : FVal) : Prop := less x y ∨ (x.finite = true ∧ y.finite = true ∧ x.rat = y.rat ∧ x.neg = true ∧ y.neg = false)
    let signals := flagIf (x.isSignalling || y.isSignalling) flagInvalid
    (∀ isMax : Bool, let r := laneMinMax f isMax a b
      r.2 = signals ∧
      (x.isNan = true → y.isNan = true → r.1 = f.canonicalNaN) ∧
      (x.isNan = true → y.isNan = false → r.1 = b) ∧ (x.isNan = false → y.isNan = true → r.1 = a) ∧
      (x.isNan = false → y.isNan = false →
        (under x y → r.1 = if isMax then b else a) ∧ (under y x → r.1 = if isMax then a else b) ∧ (r.1 = a ∨ r.1 = b))) ∧
    (∀ c, c < 8 → let t := floatCond f c a b
      let nan : Prop := x.isNan = true ∨ y.isNan = true
      (nan → (t.1 = true ↔ c = 1 ∨ c = 6) ∧ t.2 = signals ||| flagIf (decide (2 ≤ c ∧ c ≤ 5)) flagInvalid) ∧
      (¬ nan → t.2 = 0 ∧ (t.1 = true ↔
        (c = 0 ∧ ¬ less x y ∧ ¬ less y x) ∨ (c = 1 ∧ (less x y ∨ less y x)) ∨ (c = 2 ∧ less x y) ∨ (c = 3 ∧ ¬ less y x) ∨
        (c = 4 ∧ less y x) ∨ (c = 5 ∧ ¬ less x y) ∨ c = 7)))

/-- RCP and RSQ give the seeds of R465, and the special arguments of RCP, RSQ, EXP2 and LOG2 give what R140 and R142 say; EXP2 of an integer and
LOG2 of a power of two are exact; in a 16-bit lane the result in f32 is rounded once more (R143). -/
def Sys2Proof.Claims.Seeds : Prop :=
  (∀ a : Nat,
    let v := f32.value a
    let x : ℚ := 1 / v.rat
    let bad := (f32.canonicalNaN, flagInvalid)
    let canonical := (f32.canonicalNaN, flagIf v.isSignalling flagInvalid)
    let unit (e : Int) : ℚ := max (2 ^ (e - 11)) (2 ^ (-149 : ℤ))
    let number : Prop := v.finite = true ∧ v.rat ≠ 0
    let zero : Prop := v.finite = true ∧ v.rat = 0
    (v.isNan = true → rcp32 v = canonical ∧ rsq32 v = canonical ∧ exp232 v = canonical ∧ log232 v = canonical) ∧
    (v.infinite = true → rcp32 v = (f32.zero v.neg, 0) ∧ rsq32 v = (if v.neg then bad else (f32.zero false, 0)) ∧
      exp232 v = (if v.neg then f32.zero false else f32.infinity false, 0) ∧
      log232 v = if v.neg then bad else (f32.infinity false, 0)) ∧
    (zero → rcp32 v = (f32.infinity v.neg, flagDivzero) ∧ rsq32 v = (f32.infinity v.neg, flagDivzero) ∧
      log232 v = (f32.infinity true, flagDivzero)) ∧
    (number → v.rat < 0 → rsq32 v = bad ∧ log232 v = bad) ∧
    (number →
      let y := roundUnits .rn (unit (Int.log 2 |x|)) x
      (2 ^ 128 ≤ |y| → rcp32 v = (f32.infinity v.neg, flagOverflow ||| flagInexact)) ∧
      (|y| < 2 ^ 128 → (f32.value (rcp32 v).1).IsNum y v.neg ∧ (rcp32 v).2 = f32.inexactFlags x y)) ∧
    (number → 0 < v.rat →
      let q := unit (Int.log 2 x / 2)
      ∃ k : Nat, (f32.value (rsq32 v).1).IsNum (k * q) false ∧
        ((2 * k - 1) * q) ^ 2 ≤ 4 * x ∧ 4 * x ≤ ((2 * k + 1) * q) ^ 2 ∧
        (((2 * k - 1) * q) ^ 2 = 4 * x ∨ 4 * x = ((2 * k + 1) * q) ^ 2 → k % 2 = 0) ∧
        (rsq32 v).2 = flagIf (decide ((k * q) ^ 2 ≠ x)) flagInexact) ∧
    (v.finite = true →
      (128 ≤ v.rat → exp232 v = (f32.infinity false, flagOverflow ||| flagInexact)) ∧
      (v.rat < -150 → exp232 v = (f32.zero false, flagUnderflow ||| flagInexact)) ∧
      (∀ k : Int, -149 ≤ k → k < 128 → v.rat = k → (f32.value (exp232 v).1).IsNum (2 ^ k) false ∧ (exp232 v).2 = 0)) ∧
    (∀ k : Int, v.finite = true → v.rat = 2 ^ k → (f32.value (log232 v).1).IsNum k (decide (k < 0)) ∧ (log232 v).2 = 0)) ∧
  ∀ (fn : FVal → Result) (a : Nat), seedLane f32 fn a = fn (f32.value a) ∧
    ∀ f, f = bf16 ∨ f = f16 → let r := fn (f.value a)
      ∃ q, f.IsRounded .rn (f32.value r.1) q ∧ seedLane f fn a = (q.1, r.2 ||| q.2)

/-- The results of the floating lanes in exact numbers: sums, products, fused sums and conversions of the exact values rounded once, with NaNs, overflow, saturation, zeros and flags; comparisons; and the seeds and special arguments of RCP, RSQ, EXP2 and LOG2. -/
def Obligations.FloatResults : Prop :=
  Claims.FloatArithmetic ∧ Claims.FloatConversions ∧ Claims.FloatComparisons ∧ Claims.Seeds

/-! ## The numbers of the accumulators, the pack unit and the matrix engine -/

/-- An ACCH's addends: each f32 lane times 2^-E, rounded and kept within an a64, marked where it lay beyond; and an accumulate applied to its
line: each lane the sum, kept within an a64, the line's overflow bit set where a lane saturates or an addend was marked, every other byte as
before (R137, R138). -/
def Sys2Proof.Claims.AddendResults : Prop :=
  (∀ (d : Desc) (bytes : Nat),
    let a := acchAddends d bytes
    let lane (i : Nat) : FVal := f32.value (bytes / 2 ^ (32 * i) % 2 ^ 32)
    let scaled (i : Nat) : ℚ := (lane i).rat * 2 ^ (-(d.scale : Int).bmod 256)
    let addend (i : Nat) : Int := ((a.1 / 2 ^ (64 * i) % 2 ^ 64 : Nat) : Int).bmod (2 ^ 64)
    let beyond (i : Nat) : Prop := roundUnits .rn 1 (scaled i) < -2 ^ 63 ∨ 2 ^ 63 - 1 < roundUnits .rn 1 (scaled i)
    ∃ fl : Nat → BitVec 7, (∀ n, a.2.2.getLsbD n = true ↔ ∃ i, i < 32 ∧ (fl i).getLsbD n = true) ∧
      ∀ i, i < 32 →
        ((lane i).isNan = true → addend i = 0 ∧ fl i = flagInvalid) ∧
        ((lane i).infinite = true → addend i = (if (lane i).neg then -2 ^ 63 else 2 ^ 63 - 1) ∧ fl i = flagSat ||| flagInexact) ∧
        ((lane i).finite = true → IntRounds (-2 ^ 63) (2 ^ 63 - 1) .rn (scaled i) (addend i) (fl i)) ∧
        (a.2.1.testBit i = true ↔ (lane i).finite = false ∨ beyond i)) ∧
  (∀ (s : State) (line addends marks : Nat), s.mem.wf = true →
    let t := s.applyAddends line addends marks
    let old (i : Nat) : Int := (s.mem.read (line + 8 * i) 8 : Int).bmod (2 ^ 64)
    let new (i : Nat) : Int := (t.mem.read (line + 8 * i) 8 : Int).bmod (2 ^ 64)
    let sum (i : Nat) : Int := old i + (addends / 2 ^ (64 * i) : Int).bmod (2 ^ 64)
    (∀ i, i < 32 → new i = clampA64 (sum i)) ∧
    (∀ a, a < line ∨ line + 256 ≤ a → t.mem.byte a = s.mem.byte a) ∧
    ((∃ i, i < 32 ∧ clampA64 (sum i) ≠ sum i) ∨ marks ≠ 0 → t.ovf = Map.set s.ovf (line / 256) true) ∧
    ((∀ i, i < 32 → clampA64 (sum i) = sum i) → marks = 0 → t.ovf = s.ovf) ∧
    { t with mem := s.mem, ovf := s.ovf } = s)

/-- An accumulate is accepted, refused or queued as forced, is applied lane by lane with saturation and the overflow bit (when, is the model's reading, log 49), and its reply completes its command. -/
def Obligations.Accumulates : Prop :=
  Claims.AccumulateArrival ∧ Claims.AccumulateProgress ∧ Claims.AddendResults

/-- What the pack unit computes. UNPK: an element times its scale, rounded once, or an integer as it is; PACK: an element divided by the scale,
rounded once, with the special quotients, of which a NaN takes the sign of its operand by the model's choice (log 20); SPMX: the elements of
greatest magnitude of each group, in order, and INEXACT where a nonzero one is dropped (R128, R398, R399, R423, R435). -/
def Sys2Proof.Claims.PackResults : Prop :=
  (∀ x, x < 256 → elemValue 0x8 x = .num (decide (128 ≤ x)) (if x < 128 then x else 256 - x) 0 ∧ elemValue 0xB x = .num false x 0) ∧
  (∀ x, x < 16 → elemValue 0x7 x = .num (decide (8 ≤ x)) (if x < 8 then x else 16 - x) 0) ∧
  (∀ (f : UP) (scale x : Nat), f.m ≠ 7 →
    let mode := Rnd.ofCode f.r.toNat
    let v := elemValue (narrowCode f.m.toNat) x
    (f.w ≠ 3 → (laneFloat f.w.toNat).IsProduct mode v (f32.value scale) (unpkElem f scale x)) ∧
    (f.w = 3 → 4 ≤ f.m.toNat → x < 2 ^ (narrowFmtOf f.m.toNat).width →
      ((((unpkElem f scale x).1 : Int).bmod (2 ^ 32) : Int) : ℚ) = v.rat ∧ (unpkElem f scale x).2 = 0)) ∧
  (∀ (m : BitVec 3) (mode : Rnd) (x s : FVal), m ≠ 7 →
    let g := narrowFmtOf m.toNat
    let r := packElem g mode x s
    let neg : Bool := x.neg != s.neg
    let nan : Prop := x.isNan = true ∨ s.isNan = true
    let noNumber : Prop := (x.infinite = true ∧ s.infinite = true) ∨ (x.isZero = true ∧ s.isZero = true)
    (nan → ∃ q, g.IsConverted mode (.nan (if x.isNan then x.neg else s.neg) false) q ∧
      r = (q.1, flagIf (x.isSignalling || s.isSignalling) flagInvalid ||| q.2)) ∧
    (noNumber → ∃ q, g.IsConverted mode (.nan false false) q ∧ r = (q.1, flagInvalid ||| q.2)) ∧
    (¬ noNumber → (x.infinite = true ∧ s.finite = true) ∨ (x.finite = true ∧ s.isZero = true) → g.IsConverted mode (.inf neg) r) ∧
    (¬ noNumber → (x.finite = true ∧ s.infinite = true) ∨ (x.isZero = true ∧ s.finite = true) →
      g.IsConverted mode (.num neg 0 0) r) ∧
    (x.finite = true → s.finite = true → x.rat ≠ 0 → s.rat ≠ 0 → g.Rounds mode (x.rat / s.rat) neg r)) ∧
  (∀ (s : State) (f : UP), f.m ≠ 7 →
    let w := (narrowFmtOf f.m.toNat).width
    let l := if f.w = 1 ∨ f.w = 2 then 64 else 32
    let e := entry7 f.s
    let read (n i len : Nat) : Nat := n / 2 ^ (len * i) % 2 ^ len
    let packed (i : Nat) : Result := packElem (narrowFmtOf f.m.toNat) (Rnd.ofCode f.r.toNat)
      (elemValue (wideCode f.w.toNat) (read (s.entryBytes ⟨e.queue, e.offset + i / l⟩) (i % l) (1024 / l)))
      (f32.value (read (s.entryBytes ⟨e.queue, e.offset + 128 / l⟩) 0 32))
    let wide (i : Nat) : Result := unpkElem f (s.entryScale e f.h.toNat) (read (s.entryBytes e) (128 * f.h.toNat + i) w)
    let p := s.packedElems f
    (∀ i, i < 128 → read p.1 i w = (packed i).1 % 2 ^ w) ∧ p.1 < 2 ^ (128 * w) ∧
    (∀ n, p.2.getLsbD n = true ↔ ∃ i, i < 128 ∧ (packed i).2.getLsbD n = true) ∧
    (∀ k i, k < 128 / l → i < l →
      read (s.unpkEntry f k).1 i (1024 / l) = (wide (l * k + i)).1 % 2 ^ (1024 / l)) ∧
    ∀ k n, (s.unpkEntry f k).2.getLsbD n = true ↔ ∃ i, i < l ∧ (wide (l * k + i)).2.getLsbD n = true) ∧
  (∀ (s : State) (f : UP), s.iss.berth < 8 →
    let n := f.d.toNat
    let x := s.liveQ n
    let c := packEntries f.w.toNat
    let t := s.unpkAppend f
    x.splice ≠ .spliced → SameBytes s t ∧ (t.me.regs.queue n).tail = x.tail + .ofNat 16 c ∧
      ∀ k, k < c → ∃ w, Map.get? t.writebacks (s.stamp + k) = some w ∧ w.core = s.iss.core ∧ w.berth = s.iss.berth ∧
        w.queue = n ∧ w.counter = x.tail + .ofNat 16 k ∧ w.addr = x.slotAddr (x.tail + .ofNat 16 k) ∧ w.count = x.esize ∧
        w.bytes = (s.unpkEntry f k).1 ∧ w.sideband = onesSideband ∧ w.setsPresence = true ∧
        (∀ m, k + 1 = c → (w.flags.getLsbD m = true ↔ ∃ j, j < c ∧ (s.unpkEntry f j).2.getLsbD m = true))) ∧
  (∀ (m c bytes : Nat), m = 0 ∨ m = 1 ∨ m = 4 → c < 6 →
    let row := spmxRow m c bytes
    let elem (k : Nat) : Nat := bytes / 2 ^ (8 * k) % 2 ^ 8
    let value (k : Nat) : FVal := elemValue (narrowCode m) (elem k)
    let kept (k : Nat) : Prop := row.1.testBit k = true
    let above (v u : FVal) : Prop := (v.isNan = true ∧ u.isNan = false) ∨ (v.infinite = true ∧ u.finite = true) ∨
      (v.finite = true ∧ u.finite = true ∧ |u.rat| < |v.rat|)
    let group (g k : Nat) : Prop := 64 * g ≤ k ∧ k < 64 * g + 64
    (∀ g, g < 2 →
      ((Finset.range 64).filter fun k => row.1.testBit (64 * g + k)).card = 8 * (c + 1) ∧
      (∀ k j, group g k → group g j → kept k → ¬ kept j →
        ¬ above (value j) (value k) ∧ (¬ above (value k) (value j) → k < j)) ∧
      (∀ k, group g k → kept k →
        let r := ((Finset.range k).filter fun j => 64 * g ≤ j ∧ row.1.testBit j).card
        row.1 / 2 ^ (128 + 384 * g + 8 * r) % 2 ^ 8 = elem k) ∧
      ∀ r, 8 * (c + 1) ≤ r → r < 48 → row.1 / 2 ^ (128 + 384 * g + 8 * r) % 2 ^ 8 = 0) ∧
    row.1 / 2 ^ 896 = c * 2 ^ 120 ∧
    (row.2 = 0 ∨ row.2 = flagInexact) ∧
    (row.2 = flagInexact ↔ ∃ k, k < 128 ∧ ¬ kept k ∧ (value k).isZero = false)) ∧
  ∀ (s : State) (f : USp), s.iss.berth < 8 →
    let n := f.d.toNat
    let x := s.liveQ n
    let row := spmxRow f.m.toNat f.c.toNat (s.entryBytes (entry7 f.s))
    let scale := s.entryScale (entry7 f.s) 0
    let t := s.spmxAppend f
    (s.spmxTall n = false → Appended s t n row.1 (setBits onesSideband 0 32 scale) 1 row.2) ∧
    (s.spmxTall n = true → x.splice ≠ .spliced →
      let r := (s.srcQ n).rowCount
      let c := if r = 0 then x.tail else x.pendingAt
      SameBytes s t ∧ (t.me.regs.queue n).rowCount = (r + 1) % 32 ∧
        (t.me.regs.queue n).tail = (if r = 0 then x.tail + 1 else x.tail) ∧
        t.writebacks = Map.set s.writebacks s.stamp { s.flagsOnly row.2 with
          queue := n, counter := c, addr := x.slotAddr c, esize := x.esize, first := 128 * r, count := 128, bytes := row.1,
          sideband := setBits onesSideband (32 * r) 32 scale, setsPresence := decide (r = 31), unit := 1 })

/-- What UNPK, PACK, PSCL, SPMX and SPEX append, and the numbers that they compute. -/
def Obligations.PackUnit : Prop :=
  Claims.PackAppends ∧ Claims.PackResults

/-- An output element of a product (R130): the chunk's products exact, their sum in a window of 80 bits below the greatest, promoted by the
scales and the accumulator with one rounding; NaNs and infinities among the products; absent elements (R136), and the elements of a
compressed row (R135, R391); INEXACT of what the window drops. The residue agrees where nothing upsets the sum (R133). -/
def Sys2Proof.Claims.MatrixElement : Prop :=
  (∀ (o : MatrixOp) (i k : Nat), o.kind ≠ 1 → o.elemA i k = (some (entryElem o.fmtA o.a (i * chunkOf o.fmtA + k)), false)) ∧
  (∀ (o : MatrixOp) (i k : Nat), o.kind = 1 → k < 128 →
    let row := o.a / 2 ^ (1024 * i) % 2 ^ 1024
    let m := ((Finset.range k).filter fun j => 64 * (k / 64) ≤ j ∧ row.testBit j).card
    let n := 8 * (row / 2 ^ 1016 % 8 + 1)
    (row.testBit k = false → o.elemA i k = (none, false)) ∧
    (row.testBit k = true → n ≤ m → o.elemA i k = (none, true)) ∧
    (row.testBit k = true → m < n →
      o.elemA i k = (some (elemValue o.fmtA (row / 2 ^ (128 + 384 * (k / 64) + 8 * m) % 2 ^ 8)), false))) ∧
  ∀ (o : MatrixOp) (i j c : Nat), i < 32 → j < 32 →
    let c := if o.zero then 0 else c
    let r := o.element 0 i j c
    (groupOf o.groups i = none → r = (c, 0, false)) ∧
    ∀ b scB, groupOf o.groups i = some (b, scB) →
      let len := chunkOf o.fmtA
      let x (k : Nat) : Option FVal := (o.elemA i k).1
      let y (k : Nat) : FVal := entryElem o.fmtB b (32 * k + j)
      let scale (n : Nat) : FVal := f32.value (if narrowFmt o.fmtA then n % 2 ^ 32 else 0x3F800000)
      let sa := scale (o.scaleA / 2 ^ (32 * i))
      let sw := scale scB
      let acc := f32.value c
      let nan (k : Nat) (v : FVal) : Prop := v.isNan = true ∨ (y k).isNan = true ∨
        (v.isZero = true ∧ (y k).infinite = true) ∨ (v.infinite = true ∧ (y k).isZero = true)
      let someNan : Prop := ∃ k v, k < len ∧ x k = some v ∧ nan k v
      let someInf (n : Bool) : Prop := ∃ k v, k < len ∧ x k = some v ∧ ¬ nan k v ∧ (v.infinite = true ∨ (y k).infinite = true) ∧
        (v.neg != (y k).neg) = n
      let snf : Prop := ∃ k, k < len ∧ x k = none ∧ (y k).finite = false
      let tooMany : Prop := ∃ k, k < len ∧ (o.elemA i k).2 = true
      let flag (n : Nat) : Prop := r.2.1.getLsbD n = true
      r.2.2 = false ∧ (flag 6 ↔ snf) ∧
      (someNan ∨ (someInf true ∧ someInf false) → r.1 = 0x7FC00000 ∧ ¬ flag 2 ∧ ¬ flag 3 ∧ ¬ flag 4 ∧
        (flag 0 ↔ tooMany ∨ (∃ k v, k < len ∧ x k = some v ∧ v.invalidTimes (y k) = true) ∨ ¬ someNan ∨
          sa.isSignalling = true ∨ sw.isSignalling = true ∨ acc.isSignalling = true)) ∧
      (∀ n, ¬ someNan → someInf n → ¬ someInf (!n) → sa.finite = true → sa.rat ≠ 0 → sw.finite = true → sw.rat ≠ 0 → acc.finite = true →
        r.1 = f32.infinity ((n != sa.neg) != sw.neg) ∧ (flag 0 ↔ tooMany)) ∧
      ((∀ k v, k < len → x k = some v → v.finite = true ∧ (y k).finite = true) → sa.finite = true → sw.finite = true → acc.finite = true →
        let p (k : Nat) : ℚ := ((x k).map FVal.rat).getD 0 * (y k).rat
        let e (n : Int) : Prop := ((∀ k, k < len → p k = 0) → n = 0) ∧
          ((∃ k, k < len ∧ p k ≠ 0) → (∃ k, k < len ∧ p k ≠ 0 ∧ Int.log 2 |p k| = n) ∧
            ∀ k, k < len → p k ≠ 0 → Int.log 2 |p k| ≤ n)
        ∀ n, e n →
          let ulp : ℚ := 2 ^ (n - 71)
          let w : Int := ((List.range len).map fun k => ⌊p k / ulp⌋).sum
          let scaled := w * ulp * sa.rat * sw.rat
          let z := scaled + acc.rat
          let dropped : Prop := ∃ k, k < len ∧ ⌊p k / ulp⌋ * ulp ≠ p k
          ∃ q : Result, r.1 = q.1 ∧ (flag 0 ↔ tooMany) ∧ (flag 2 ↔ q.2.getLsbD 2 = true) ∧ (flag 3 ↔ q.2.getLsbD 3 = true) ∧
            (flag 4 ↔ dropped ∨ q.2.getLsbD 4 = true) ∧ ¬ flag 1 ∧ ¬ flag 5 ∧
            (z = 0 → q = (f32.zero (decide (scaled = 0) && decide (acc.rat = 0) && acc.neg && ((decide (w < 0) != sa.neg) != sw.neg)), 0)) ∧
            (z ≠ 0 → f32.Rounds .rn (f32.overflowed .rn (decide (z < 0))) z (decide (z < 0)) q))

/-- Each M-slot operation queues at its half-array with its operands bound; the half-array completes its head, each output element of a product as R130 sums and promotes it. -/
def Obligations.MatrixUnit : Prop :=
  Claims.MatrixIssue ∧ Claims.MatrixPromotion ∧ Claims.MatrixElement

/-! ## The canonical form -/

/-- Every instruction and every row that answers a next state, and so every step, keeps the canonical form of memory, of every scratchpad and of
the mailbox: addresses rise, and no byte is listed that would read the same unlisted. -/
def Obligations.CanonicalForm : Prop :=
  ∀ s : State, s.canonical →
    (∀ (i : Instr) (t : State), exec i s = .next t → t.canonical) ∧ ∀ t : State, step s = .next t → t.canonical
end

