-- ==== Sys2Proof/Laws/Map.lean ====
section
/-! SUPPORT. Reading back what was written: tables by number, vectors, and byte memory with its canonical form. -/

namespace Sys2Proof.Machine

/-! ## Tables -/

@[simp] theorem Map.get?_nil {α : Type} (k : Nat) : Map.get? ([] : Map α) k = none := rfl

@[simp] theorem Map.get?_set_self {α : Type} (m : Map α) (k : Nat) (v : α) : Map.get? (Map.set m k v) k = some v := by
  induction m with
  | nil => simp [Map.set, Map.get?]
  | cons e m ih =>
    obtain ⟨j, u⟩ := e
    simp only [Map.set]
    split
    · simp [Map.get?]
    · split
      · simp [Map.get?]
      · rename_i h; simp [Map.get?, Ne.symm h, ih]

theorem Map.get?_set_ne {α : Type} (m : Map α) {k j : Nat} (v : α) (h : j ≠ k) :
    Map.get? (Map.set m k v) j = Map.get? m j := by
  induction m with
  | nil => simp [Map.set, Map.get?, h.symm]
  | cons e m ih =>
    obtain ⟨i, u⟩ := e
    simp only [Map.set]
    split
    · simp [Map.get?, h.symm]
    · split
      · rename_i h'; subst h'; simp [Map.get?, h.symm]
      · simp [Map.get?, ih]

@[simp] theorem Map.getD_set_self {α : Type} (m : Map α) (k : Nat) (v d : α) : Map.getD (Map.set m k v) k d = v := by
  simp [Map.getD]

theorem Map.getD_set_ne {α : Type} (m : Map α) {k j : Nat} (v d : α) (h : j ≠ k) :
    Map.getD (Map.set m k v) j d = Map.getD m j d := by
  simp [Map.getD, Map.get?_set_ne m v h]

theorem Map.get?_erase_self {α : Type} (m : Map α) (k : Nat) : Map.get? (Map.erase m k) k = none := by
  induction m with
  | nil => rfl
  | cons e m ih =>
    obtain ⟨j, u⟩ := e
    by_cases h : j = k
    · subst h; simpa [Map.erase] using ih
    · simpa [Map.erase, Map.get?, h] using ih

theorem Map.get?_erase_ne {α : Type} (m : Map α) {k j : Nat} (h : j ≠ k) : Map.get? (Map.erase m k) j = Map.get? m j := by
  induction m with
  | nil => rfl
  | cons e m ih =>
    obtain ⟨i, u⟩ := e
    by_cases hi : i = k
    · subst hi; simpa [Map.erase, Map.get?, h.symm] using ih
    · have : Map.erase ((i, u) :: m) k = (i, u) :: Map.erase m k := by simp [Map.erase, hi]
      rw [this]; simp only [Map.get?]; split
      · rfl
      · exact ih

/-! ## Vectors -/

theorem vget_vset_self {α : Type} {n : Nat} (v : Vector α n) {i : Nat} (x d : α) (h : i < n) : vget (vset v i x) i d = x := by
  simp [vget, vset, h]

theorem vget_vset_ne {α : Type} {n : Nat} (v : Vector α n) {i j : Nat} (x d : α) (h : j ≠ i) :
    vget (vset v i x) j d = vget v j d := by
  unfold vget vset
  split
  · split
    · rename_i hj hi; exact Vector.getElem_set_ne hi hj h.symm
    · rfl
  · rfl

/-- A place beyond a vector's end is not written. -/
theorem vset_of_le {α : Type} {n : Nat} (v : Vector α n) {i : Nat} (x : α) (h : n ≤ i) : vset v i x = v := by
  simp [vset, Nat.not_lt.mpr h]

@[simp] theorem vset_vset {α : Type} {n : Nat} (v : Vector α n) (i : Nat) (x y : α) : vset (vset v i x) i y = vset v i y := by
  unfold vset; split <;> simp

/-! ## Byte memory -/

theorem Memory.wfFrom_mono {m : Memory} {a b : Nat} (h : m.wfFrom b = true) (hab : a ≤ b) : m.wfFrom a = true := by
  cases m with
  | nil => rfl
  | cons e m =>
    obtain ⟨c, v⟩ := e
    simp only [Memory.wfFrom, Bool.and_eq_true, decide_eq_true_eq] at h ⊢
    exact ⟨⟨by omega, h.1.2⟩, h.2⟩

/-- Below its first address a memory in canonical form reads as unlisted. -/
theorem Memory.byte_of_lt {m : Memory} {lo a : Nat} (h : m.wfFrom lo = true) (ha : a < lo) : m.byte a = unlistedByte := by
  cases m with
  | nil => rfl
  | cons e m =>
    obtain ⟨c, v⟩ := e
    simp only [Memory.wfFrom, Bool.and_eq_true, decide_eq_true_eq] at h
    simp only [Memory.byte]
    rw [if_neg (by omega), if_pos (by omega)]

theorem Memory.wfFrom_put {m : Memory} {lo a : Nat} (v : Byte) (h : m.wfFrom lo = true) (ha : lo ≤ a) :
    (m.put a v).wfFrom lo = true := by
  induction m generalizing lo with
  | nil => by_cases hv : v = unlistedByte <;> simp [Memory.put, hv, Memory.wfFrom, ha]
  | cons e m ih =>
    obtain ⟨b, u⟩ := e
    have h0 := h
    simp only [Memory.wfFrom, Bool.and_eq_true, decide_eq_true_eq, bne_iff_ne] at h
    simp only [Memory.put]
    split
    · split
      · exact h0
      · rename_i hb hv
        simp only [Memory.wfFrom, Bool.and_eq_true, decide_eq_true_eq, bne_iff_ne]
        exact ⟨⟨ha, hv⟩, ⟨by omega, h.1.2⟩, h.2⟩
    · split
      · split
        · exact Memory.wfFrom_mono h.2 (by omega)
        · rename_i hv
          subst_vars
          simp only [Memory.wfFrom, Bool.and_eq_true, decide_eq_true_eq, bne_iff_ne]
          exact ⟨⟨ha, hv⟩, h.2⟩
      · simp only [Memory.wfFrom, Bool.and_eq_true, decide_eq_true_eq, bne_iff_ne]
        exact ⟨h.1, ih h.2 (by omega)⟩

/-- A write of a byte keeps the canonical form. -/
theorem Memory.wf_put {m : Memory} (a : Nat) (v : Byte) (h : m.wf = true) : (m.put a v).wf = true :=
  Memory.wfFrom_put v h (Nat.zero_le a)

/-- A write of n bytes keeps the canonical form. -/
theorem Memory.wf_write {m : Memory} (a n v : Nat) (h : m.wf = true) : (m.write a n v).wf = true := by
  induction n generalizing m a v with
  | zero => exact h
  | succ n ih => exact ih (a + 1) (v / 256) (Memory.wf_put a _ h)

/-- A memory of which some bytes are dropped keeps the canonical form. -/
theorem Memory.wfFrom_filter {m : Memory} (p : Host.Cell → Bool) {lo : Nat} (h : m.wfFrom lo = true) :
    Memory.wfFrom (m.filter p) lo = true := by
  induction m generalizing lo with
  | nil => rfl
  | cons e m ih =>
    obtain ⟨b, u⟩ := e
    simp only [Memory.wfFrom, Bool.and_eq_true, decide_eq_true_eq] at h
    by_cases hp : p (b, u) = true
    · simpa [List.filter_cons, hp, Memory.wfFrom, h.1] using ih h.2
    · simpa [List.filter_cons, hp] using Memory.wfFrom_mono (ih h.2) (by omega)

theorem Memory.wf_filter {m : Memory} (p : Host.Cell → Bool) (h : m.wf = true) : Memory.wf (m.filter p) = true :=
  Memory.wfFrom_filter p h

theorem Memory.byte_put_wf {m : Memory} {lo : Nat} (a b : Nat) (v : Byte) (h : m.wfFrom lo = true) :
    (m.put a v).byte b = if b = a then v else m.byte b := by
  induction m generalizing lo with
  | nil =>
    by_cases hb : b = a
    · subst hb; by_cases hv : v = unlistedByte <;> simp [Memory.put, Memory.byte, hv]
    · by_cases hv : v = unlistedByte <;> simp [Memory.put, Memory.byte, hv, hb, Ne.symm hb]
  | cons e m ih =>
    obtain ⟨c, u⟩ := e
    simp only [Memory.wfFrom, Bool.and_eq_true, decide_eq_true_eq, bne_iff_ne] at h
    simp only [Memory.put]
    split
    · rename_i hac
      split
      · rename_i hv
        by_cases hb : b = a
        · subst hb; rw [if_pos rfl]; simp only [Memory.byte]; rw [if_neg (by omega), if_pos hac, hv]
        · rw [if_neg hb]
      · by_cases hb : b = a
        · subst hb; simp [Memory.byte]
        · rw [if_neg hb]
          simp only [Memory.byte]
          rw [if_neg (Ne.symm hb)]
          split
          · rw [if_neg (by omega), if_pos (by omega)]
          · rfl
    · split
      · rename_i hac hac'
        subst hac'
        split
        · rename_i hv
          by_cases hb : b = a
          · subst hb; rw [if_pos rfl, hv]; exact Memory.byte_of_lt h.2 (by omega)
          · rw [if_neg hb]
            simp only [Memory.byte]
            rw [if_neg (Ne.symm hb)]
            split
            · exact Memory.byte_of_lt h.2 (by omega)
            · rfl
        · by_cases hb : b = a
          · subst hb; simp [Memory.byte]
          · rw [if_neg hb]; simp [Memory.byte, Ne.symm hb]
      · rename_i hac hne
        simp only [Memory.byte]
        split
        · rename_i hcb; rw [if_neg (by omega)]
        · split
          · rw [if_neg (by omega)]
          · exact ih h.2

/-- A byte written is read back, and no other byte changes. -/
theorem Memory.byte_put {m : Memory} (a b : Nat) (v : Byte) (h : m.wf = true) :
    (m.put a v).byte b = if b = a then v else m.byte b := Memory.byte_put_wf a b v h

/-- A write of n bytes leaves every byte outside them. -/
theorem Memory.byte_write_of_out {m : Memory} (a n v b : Nat) (h : m.wf = true) (hb : b < a ∨ a + n ≤ b) :
    (m.write a n v).byte b = m.byte b := by
  induction n generalizing m a v with
  | zero => rfl
  | succ n ih =>
    show ((m.put a _).write (a + 1) n (v / 256)).byte b = _
    rw [ih (a + 1) (v / 256) (Memory.wf_put a _ h) (by omega), Memory.byte_put a b _ h, if_neg (by omega)]

/-- The bytes read back are those written. -/
theorem Memory.read_congr {m m' : Memory} (a n : Nat) (h : ∀ b, a ≤ b → b < a + n → m.byte b = m'.byte b) :
    m.read a n = m'.read a n := by
  induction n generalizing a with
  | zero => rfl
  | succ n ih =>
    simp only [Memory.read]
    rw [h a (by omega) (by omega), ih (a + 1) fun b h1 h2 => h b (by omega) (by omega)]

/-- The reset memory is in canonical form. -/
theorem State.reset_mem_wf : State.reset.mem.wf = true := rfl

/-- Every reset scratchpad is in canonical form. -/
theorem State.reset_spad_wf (n : Nat) : (State.reset.cluster n).spad.wf = true := rfl

end Sys2Proof.Machine
end

