-- ==== Sys2Proof/Laws/State.lean ====
section
/-! SUPPORT. What each update of the state leaves: one lemma for each field and each update, and the parts of the state after
it. -/

namespace Sys2Proof.Machine

/-! ### The parts that an update writes -/

@[simp] theorem State.core_setCore_self (s : State) (c : Nat) (k : Core) : (s.setCore c k).core c = k := by
  simp [State.core, State.setCore]

theorem State.core_setCore_ne (s : State) {c d : Nat} (k : Core) (h : d ≠ c) : (s.setCore c k).core d = s.core d := by
  simp [State.core, State.setCore, Map.getD_set_ne s.cores k Core.reset h]

@[simp] theorem State.cluster_setCluster_self (s : State) (n : Nat) (k : Cluster) : (s.setCluster n k).cluster n = k := by
  simp [State.cluster, State.setCluster]

theorem State.cluster_setCluster_ne (s : State) {n m : Nat} (k : Cluster) (h : m ≠ n) :
    (s.setCluster n k).cluster m = s.cluster m := by
  simp [State.cluster, State.setCluster, Map.getD_set_ne s.clusters k Cluster.reset h]

@[simp] theorem State.cluster_setCore (s : State) (c n : Nat) (k : Core) : (s.setCore c k).cluster n = s.cluster n := rfl

@[simp] theorem State.core_setCluster (s : State) (c n : Nat) (k : Cluster) : (s.setCluster n k).core c = s.core c := rfl

@[simp] theorem State.cluster_onBerth (s : State) (c b n : Nat) (f : Berth → Berth) :
    (s.onBerth c b f).cluster n = s.cluster n := rfl

@[simp] theorem State.cluster_onMe (s : State) (n : Nat) (f : Berth → Berth) : (s.onMe f).cluster n = s.cluster n := rfl

@[simp] theorem State.core_later (s : State) (c : Nat) (i : Instr) : (s.later i).core c = s.core c := rfl

@[simp] theorem State.cluster_later (s : State) (n : Nat) (i : Instr) : (s.later i).cluster n = s.cluster n := rfl

@[simp] theorem State.later_agenda (s : State) (i : Instr) : (s.later i).agenda = s.agenda ++ [i] := rfl

@[simp] theorem State.bump_stamp (s : State) : s.bump.stamp = s.stamp + 1 := rfl

theorem State.berth_setBerth_self (s : State) {c b : Nat} (x : Berth) (h : b < 8) : (s.setBerth c b x).berth c b = x := by
  simp [State.berth, State.setBerth, vget_vset_self _ x Berth.reset h]

theorem State.berth_setBerth_ne (s : State) {c b d : Nat} (x : Berth) (h : d ≠ b) :
    (s.setBerth c b x).berth c d = s.berth c d := by
  simp [State.berth, State.setBerth, vget_vset_ne _ x Berth.reset h]

theorem State.berth_setBerth_core (s : State) {c d b e : Nat} (x : Berth) (h : d ≠ c) :
    (s.setBerth c b x).berth d e = s.berth d e := by
  simp [State.berth, State.setBerth, State.core_setCore_ne s _ h]

theorem State.berth_onBerth_self (s : State) {c b : Nat} (f : Berth → Berth) (h : b < 8) :
    (s.onBerth c b f).berth c b = f (s.berth c b) := State.berth_setBerth_self s _ h

/-- The issuing berth after a change of it. -/
theorem State.me_onMe (s : State) (f : Berth → Berth) (h : s.iss.berth < 8) : (s.onMe f).me = f s.me :=
  State.berth_onBerth_self s f h

theorem State.me_onRegs (s : State) (f : Regs → Regs) (h : s.iss.berth < 8) :
    (s.onRegs f).me = { s.me with regs := f s.me.regs } := State.me_onMe s _ h

@[simp] theorem State.myCore_onMyCore (s : State) (f : Core → Core) : (s.onMyCore f).myCore = f s.myCore :=
  State.core_setCore_self s s.iss.core (f s.myCore)

/-! ### The slot named as the one that acts -/

@[simp] theorem State.inSlot_core (s : State) (k : Option SlotKind) (c : Nat) : (s.inSlot k).core c = s.core c := by
  cases k <;> rfl

@[simp] theorem State.inSlot_cluster (s : State) (k : Option SlotKind) (n : Nat) : (s.inSlot k).cluster n = s.cluster n := by
  cases k <;> rfl

@[simp] theorem State.inSlot_mem (s : State) (k : Option SlotKind) : (s.inSlot k).mem = s.mem := by cases k <;> rfl

@[simp] theorem State.inSlot_start (s : State) (k : Option SlotKind) : (s.inSlot k).iss.start = s.iss.start := by
  cases k <;> rfl

@[simp] theorem State.inSlot_me (s : State) (k : Option SlotKind) : (s.inSlot k).me = s.me := by cases k <;> rfl

@[simp] theorem State.inSlot_srcG (s : State) (k : Option SlotKind) (r : BitVec 5) : (s.inSlot k).srcG r = s.srcG r := by
  cases k <;> rfl

@[simp] theorem State.inSlot_srcK (s : State) (k : Option SlotKind) (r : BitVec 3) : (s.inSlot k).srcK r = s.srcK r := by
  cases k <;> rfl

@[simp] theorem State.inSlot_predIs (s : State) (k : Option SlotKind) (p : BitVec 3) (n : BitVec 1) :
    (s.inSlot k).predIs p n = s.predIs p n := by cases k <;> rfl

/-- Naming the slot changes nothing but the name. -/
theorem State.inSlot_eq (s : State) (k : Option SlotKind) : { s.inSlot k with iss := s.iss } = s := by cases k <;> rfl

@[simp] theorem State.readEntries_nil (s : State) : s.readEntries [] = s := rfl

/-! ### The fields after setCore -/

@[simp] theorem State.setCore_clusters (s : State) (c : Nat) (k : Core) : (s.setCore c k).clusters = s.clusters := rfl
@[simp] theorem State.setCore_mem (s : State) (c : Nat) (k : Core) : (s.setCore c k).mem = s.mem := rfl
@[simp] theorem State.setCore_ctrl (s : State) (c : Nat) (k : Core) : (s.setCore c k).ctrl = s.ctrl := rfl
@[simp] theorem State.setCore_fifo (s : State) (c : Nat) (k : Core) : (s.setCore c k).fifo = s.fifo := rfl
@[simp] theorem State.setCore_launches (s : State) (c : Nat) (k : Core) : (s.setCore c k).launches = s.launches := rfl
@[simp] theorem State.setCore_barriers (s : State) (c : Nat) (k : Core) : (s.setCore c k).barriers = s.barriers := rfl
@[simp] theorem State.setCore_phases (s : State) (c : Nat) (k : Core) : (s.setCore c k).phases = s.phases := rfl
@[simp] theorem State.setCore_contributions (s : State) (c : Nat) (k : Core) : (s.setCore c k).contributions = s.contributions := rfl
@[simp] theorem State.setCore_reservations (s : State) (c : Nat) (k : Core) : (s.setCore c k).reservations = s.reservations := rfl
@[simp] theorem State.setCore_raised (s : State) (c : Nat) (k : Core) : (s.setCore c k).raised = s.raised := rfl
@[simp] theorem State.setCore_stamped (s : State) (c : Nat) (k : Core) : (s.setCore c k).stamped = s.stamped := rfl
@[simp] theorem State.setCore_seq (s : State) (c : Nat) (k : Core) : (s.setCore c k).seq = s.seq := rfl
@[simp] theorem State.setCore_evqArmed (s : State) (c : Nat) (k : Core) : (s.setCore c k).evqArmed = s.evqArmed := rfl
@[simp] theorem State.setCore_evqMessages (s : State) (c : Nat) (k : Core) : (s.setCore c k).evqMessages = s.evqMessages := rfl
@[simp] theorem State.setCore_readyDue (s : State) (c : Nat) (k : Core) : (s.setCore c k).readyDue = s.readyDue := rfl
@[simp] theorem State.setCore_faults (s : State) (c : Nat) (k : Core) : (s.setCore c k).faults = s.faults := rfl
@[simp] theorem State.setCore_accesses (s : State) (c : Nat) (k : Core) : (s.setCore c k).accesses = s.accesses := rfl
@[simp] theorem State.setCore_commands (s : State) (c : Nat) (k : Core) : (s.setCore c k).commands = s.commands := rfl
@[simp] theorem State.setCore_messages (s : State) (c : Nat) (k : Core) : (s.setCore c k).messages = s.messages := rfl
@[simp] theorem State.setCore_writebacks (s : State) (c : Nat) (k : Core) : (s.setCore c k).writebacks = s.writebacks := rfl
@[simp] theorem State.setCore_walks (s : State) (c : Nat) (k : Core) : (s.setCore c k).walks = s.walks := rfl
@[simp] theorem State.setCore_migrations (s : State) (c : Nat) (k : Core) : (s.setCore c k).migrations = s.migrations := rfl
@[simp] theorem State.setCore_refusedWrites (s : State) (c : Nat) (k : Core) : (s.setCore c k).refusedWrites = s.refusedWrites := rfl
@[simp] theorem State.setCore_forced (s : State) (c : Nat) (k : Core) : (s.setCore c k).forced = s.forced := rfl
@[simp] theorem State.setCore_accepted (s : State) (c : Nat) (k : Core) : (s.setCore c k).accepted = s.accepted := rfl
@[simp] theorem State.setCore_tickets (s : State) (c : Nat) (k : Core) : (s.setCore c k).tickets = s.tickets := rfl
@[simp] theorem State.setCore_susp (s : State) (c : Nat) (k : Core) : (s.setCore c k).susp = s.susp := rfl
@[simp] theorem State.setCore_leases (s : State) (c : Nat) (k : Core) : (s.setCore c k).leases = s.leases := rfl
@[simp] theorem State.setCore_records (s : State) (c : Nat) (k : Core) : (s.setCore c k).records = s.records := rfl
@[simp] theorem State.setCore_capgen (s : State) (c : Nat) (k : Core) : (s.setCore c k).capgen = s.capgen := rfl
@[simp] theorem State.setCore_bandsDue (s : State) (c : Nat) (k : Core) : (s.setCore c k).bandsDue = s.bandsDue := rfl
@[simp] theorem State.setCore_scores (s : State) (c : Nat) (k : Core) : (s.setCore c k).scores = s.scores := rfl
@[simp] theorem State.setCore_savedScores (s : State) (c : Nat) (k : Core) : (s.setCore c k).savedScores = s.savedScores := rfl
@[simp] theorem State.setCore_seconds (s : State) (c : Nat) (k : Core) : (s.setCore c k).seconds = s.seconds := rfl
@[simp] theorem State.setCore_remap (s : State) (c : Nat) (k : Core) : (s.setCore c k).remap = s.remap := rfl
@[simp] theorem State.setCore_pins (s : State) (c : Nat) (k : Core) : (s.setCore c k).pins = s.pins := rfl
@[simp] theorem State.setCore_floors (s : State) (c : Nat) (k : Core) : (s.setCore c k).floors = s.floors := rfl
@[simp] theorem State.setCore_counters (s : State) (c : Nat) (k : Core) : (s.setCore c k).counters = s.counters := rfl
@[simp] theorem State.setCore_windows (s : State) (c : Nat) (k : Core) : (s.setCore c k).windows = s.windows := rfl
@[simp] theorem State.setCore_packets (s : State) (c : Nat) (k : Core) : (s.setCore c k).packets = s.packets := rfl
@[simp] theorem State.setCore_windowQueue (s : State) (c : Nat) (k : Core) : (s.setCore c k).windowQueue = s.windowQueue := rfl
@[simp] theorem State.setCore_sentAt (s : State) (c : Nat) (k : Core) : (s.setCore c k).sentAt = s.sentAt := rfl
@[simp] theorem State.setCore_islands (s : State) (c : Nat) (k : Core) : (s.setCore c k).islands = s.islands := rfl
@[simp] theorem State.setCore_spares (s : State) (c : Nat) (k : Core) : (s.setCore c k).spares = s.spares := rfl
@[simp] theorem State.setCore_lines (s : State) (c : Nat) (k : Core) : (s.setCore c k).lines = s.lines := rfl
@[simp] theorem State.setCore_sharers (s : State) (c : Nat) (k : Core) : (s.setCore c k).sharers = s.sharers := rfl
@[simp] theorem State.setCore_sectors (s : State) (c : Nat) (k : Core) : (s.setCore c k).sectors = s.sectors := rfl
@[simp] theorem State.setCore_uncached (s : State) (c : Nat) (k : Core) : (s.setCore c k).uncached = s.uncached := rfl
@[simp] theorem State.setCore_corrected (s : State) (c : Nat) (k : Core) : (s.setCore c k).corrected = s.corrected := rfl
@[simp] theorem State.setCore_ovf (s : State) (c : Nat) (k : Core) : (s.setCore c k).ovf = s.ovf := rfl
@[simp] theorem State.setCore_hostReply (s : State) (c : Nat) (k : Core) : (s.setCore c k).hostReply = s.hostReply := rfl
@[simp] theorem State.setCore_marked (s : State) (c : Nat) (k : Core) : (s.setCore c k).marked = s.marked := rfl
@[simp] theorem State.setCore_toNotify (s : State) (c : Nat) (k : Core) : (s.setCore c k).toNotify = s.toNotify := rfl
@[simp] theorem State.setCore_farPoison (s : State) (c : Nat) (k : Core) : (s.setCore c k).farPoison = s.farPoison := rfl
@[simp] theorem State.setCore_resends (s : State) (c : Nat) (k : Core) : (s.setCore c k).resends = s.resends := rfl
@[simp] theorem State.setCore_stalledRows (s : State) (c : Nat) (k : Core) : (s.setCore c k).stalledRows = s.stalledRows := rfl
@[simp] theorem State.setCore_iss (s : State) (c : Nat) (k : Core) : (s.setCore c k).iss = s.iss := rfl
@[simp] theorem State.setCore_agenda (s : State) (c : Nat) (k : Core) : (s.setCore c k).agenda = s.agenda := rfl
@[simp] theorem State.setCore_turn (s : State) (c : Nat) (k : Core) : (s.setCore c k).turn = s.turn := rfl
@[simp] theorem State.setCore_now (s : State) (c : Nat) (k : Core) : (s.setCore c k).now = s.now := rfl
@[simp] theorem State.setCore_stamp (s : State) (c : Nat) (k : Core) : (s.setCore c k).stamp = s.stamp := rfl
@[simp] theorem State.setCore_off (s : State) (c : Nat) (k : Core) : (s.setCore c k).off = s.off := rfl

/-! ### The fields after setCluster -/

@[simp] theorem State.setCluster_cores (s : State) (n : Nat) (k : Cluster) : (s.setCluster n k).cores = s.cores := rfl
@[simp] theorem State.setCluster_mem (s : State) (n : Nat) (k : Cluster) : (s.setCluster n k).mem = s.mem := rfl
@[simp] theorem State.setCluster_ctrl (s : State) (n : Nat) (k : Cluster) : (s.setCluster n k).ctrl = s.ctrl := rfl
@[simp] theorem State.setCluster_fifo (s : State) (n : Nat) (k : Cluster) : (s.setCluster n k).fifo = s.fifo := rfl
@[simp] theorem State.setCluster_launches (s : State) (n : Nat) (k : Cluster) : (s.setCluster n k).launches = s.launches := rfl
@[simp] theorem State.setCluster_barriers (s : State) (n : Nat) (k : Cluster) : (s.setCluster n k).barriers = s.barriers := rfl
@[simp] theorem State.setCluster_phases (s : State) (n : Nat) (k : Cluster) : (s.setCluster n k).phases = s.phases := rfl
@[simp] theorem State.setCluster_contributions (s : State) (n : Nat) (k : Cluster) : (s.setCluster n k).contributions = s.contributions := rfl
@[simp] theorem State.setCluster_reservations (s : State) (n : Nat) (k : Cluster) : (s.setCluster n k).reservations = s.reservations := rfl
@[simp] theorem State.setCluster_raised (s : State) (n : Nat) (k : Cluster) : (s.setCluster n k).raised = s.raised := rfl
@[simp] theorem State.setCluster_stamped (s : State) (n : Nat) (k : Cluster) : (s.setCluster n k).stamped = s.stamped := rfl
@[simp] theorem State.setCluster_seq (s : State) (n : Nat) (k : Cluster) : (s.setCluster n k).seq = s.seq := rfl
@[simp] theorem State.setCluster_evqArmed (s : State) (n : Nat) (k : Cluster) : (s.setCluster n k).evqArmed = s.evqArmed := rfl
@[simp] theorem State.setCluster_evqMessages (s : State) (n : Nat) (k : Cluster) : (s.setCluster n k).evqMessages = s.evqMessages := rfl
@[simp] theorem State.setCluster_readyDue (s : State) (n : Nat) (k : Cluster) : (s.setCluster n k).readyDue = s.readyDue := rfl
@[simp] theorem State.setCluster_faults (s : State) (n : Nat) (k : Cluster) : (s.setCluster n k).faults = s.faults := rfl
@[simp] theorem State.setCluster_accesses (s : State) (n : Nat) (k : Cluster) : (s.setCluster n k).accesses = s.accesses := rfl
@[simp] theorem State.setCluster_commands (s : State) (n : Nat) (k : Cluster) : (s.setCluster n k).commands = s.commands := rfl
@[simp] theorem State.setCluster_messages (s : State) (n : Nat) (k : Cluster) : (s.setCluster n k).messages = s.messages := rfl
@[simp] theorem State.setCluster_writebacks (s : State) (n : Nat) (k : Cluster) : (s.setCluster n k).writebacks = s.writebacks := rfl
@[simp] theorem State.setCluster_walks (s : State) (n : Nat) (k : Cluster) : (s.setCluster n k).walks = s.walks := rfl
@[simp] theorem State.setCluster_migrations (s : State) (n : Nat) (k : Cluster) : (s.setCluster n k).migrations = s.migrations := rfl
@[simp] theorem State.setCluster_refusedWrites (s : State) (n : Nat) (k : Cluster) : (s.setCluster n k).refusedWrites = s.refusedWrites := rfl
@[simp] theorem State.setCluster_forced (s : State) (n : Nat) (k : Cluster) : (s.setCluster n k).forced = s.forced := rfl
@[simp] theorem State.setCluster_accepted (s : State) (n : Nat) (k : Cluster) : (s.setCluster n k).accepted = s.accepted := rfl
@[simp] theorem State.setCluster_tickets (s : State) (n : Nat) (k : Cluster) : (s.setCluster n k).tickets = s.tickets := rfl
@[simp] theorem State.setCluster_susp (s : State) (n : Nat) (k : Cluster) : (s.setCluster n k).susp = s.susp := rfl
@[simp] theorem State.setCluster_leases (s : State) (n : Nat) (k : Cluster) : (s.setCluster n k).leases = s.leases := rfl
@[simp] theorem State.setCluster_records (s : State) (n : Nat) (k : Cluster) : (s.setCluster n k).records = s.records := rfl
@[simp] theorem State.setCluster_capgen (s : State) (n : Nat) (k : Cluster) : (s.setCluster n k).capgen = s.capgen := rfl
@[simp] theorem State.setCluster_bandsDue (s : State) (n : Nat) (k : Cluster) : (s.setCluster n k).bandsDue = s.bandsDue := rfl
@[simp] theorem State.setCluster_scores (s : State) (n : Nat) (k : Cluster) : (s.setCluster n k).scores = s.scores := rfl
@[simp] theorem State.setCluster_savedScores (s : State) (n : Nat) (k : Cluster) : (s.setCluster n k).savedScores = s.savedScores := rfl
@[simp] theorem State.setCluster_seconds (s : State) (n : Nat) (k : Cluster) : (s.setCluster n k).seconds = s.seconds := rfl
@[simp] theorem State.setCluster_remap (s : State) (n : Nat) (k : Cluster) : (s.setCluster n k).remap = s.remap := rfl
@[simp] theorem State.setCluster_pins (s : State) (n : Nat) (k : Cluster) : (s.setCluster n k).pins = s.pins := rfl
@[simp] theorem State.setCluster_floors (s : State) (n : Nat) (k : Cluster) : (s.setCluster n k).floors = s.floors := rfl
@[simp] theorem State.setCluster_counters (s : State) (n : Nat) (k : Cluster) : (s.setCluster n k).counters = s.counters := rfl
@[simp] theorem State.setCluster_windows (s : State) (n : Nat) (k : Cluster) : (s.setCluster n k).windows = s.windows := rfl
@[simp] theorem State.setCluster_packets (s : State) (n : Nat) (k : Cluster) : (s.setCluster n k).packets = s.packets := rfl
@[simp] theorem State.setCluster_windowQueue (s : State) (n : Nat) (k : Cluster) : (s.setCluster n k).windowQueue = s.windowQueue := rfl
@[simp] theorem State.setCluster_sentAt (s : State) (n : Nat) (k : Cluster) : (s.setCluster n k).sentAt = s.sentAt := rfl
@[simp] theorem State.setCluster_islands (s : State) (n : Nat) (k : Cluster) : (s.setCluster n k).islands = s.islands := rfl
@[simp] theorem State.setCluster_spares (s : State) (n : Nat) (k : Cluster) : (s.setCluster n k).spares = s.spares := rfl
@[simp] theorem State.setCluster_lines (s : State) (n : Nat) (k : Cluster) : (s.setCluster n k).lines = s.lines := rfl
@[simp] theorem State.setCluster_sharers (s : State) (n : Nat) (k : Cluster) : (s.setCluster n k).sharers = s.sharers := rfl
@[simp] theorem State.setCluster_sectors (s : State) (n : Nat) (k : Cluster) : (s.setCluster n k).sectors = s.sectors := rfl
@[simp] theorem State.setCluster_uncached (s : State) (n : Nat) (k : Cluster) : (s.setCluster n k).uncached = s.uncached := rfl
@[simp] theorem State.setCluster_corrected (s : State) (n : Nat) (k : Cluster) : (s.setCluster n k).corrected = s.corrected := rfl
@[simp] theorem State.setCluster_ovf (s : State) (n : Nat) (k : Cluster) : (s.setCluster n k).ovf = s.ovf := rfl
@[simp] theorem State.setCluster_hostReply (s : State) (n : Nat) (k : Cluster) : (s.setCluster n k).hostReply = s.hostReply := rfl
@[simp] theorem State.setCluster_marked (s : State) (n : Nat) (k : Cluster) : (s.setCluster n k).marked = s.marked := rfl
@[simp] theorem State.setCluster_toNotify (s : State) (n : Nat) (k : Cluster) : (s.setCluster n k).toNotify = s.toNotify := rfl
@[simp] theorem State.setCluster_farPoison (s : State) (n : Nat) (k : Cluster) : (s.setCluster n k).farPoison = s.farPoison := rfl
@[simp] theorem State.setCluster_resends (s : State) (n : Nat) (k : Cluster) : (s.setCluster n k).resends = s.resends := rfl
@[simp] theorem State.setCluster_stalledRows (s : State) (n : Nat) (k : Cluster) : (s.setCluster n k).stalledRows = s.stalledRows := rfl
@[simp] theorem State.setCluster_iss (s : State) (n : Nat) (k : Cluster) : (s.setCluster n k).iss = s.iss := rfl
@[simp] theorem State.setCluster_agenda (s : State) (n : Nat) (k : Cluster) : (s.setCluster n k).agenda = s.agenda := rfl
@[simp] theorem State.setCluster_turn (s : State) (n : Nat) (k : Cluster) : (s.setCluster n k).turn = s.turn := rfl
@[simp] theorem State.setCluster_now (s : State) (n : Nat) (k : Cluster) : (s.setCluster n k).now = s.now := rfl
@[simp] theorem State.setCluster_stamp (s : State) (n : Nat) (k : Cluster) : (s.setCluster n k).stamp = s.stamp := rfl
@[simp] theorem State.setCluster_off (s : State) (n : Nat) (k : Cluster) : (s.setCluster n k).off = s.off := rfl

/-! ### The fields after setBerth -/

@[simp] theorem State.setBerth_clusters (s : State) (c b : Nat) (x : Berth) : (s.setBerth c b x).clusters = s.clusters := rfl
@[simp] theorem State.setBerth_mem (s : State) (c b : Nat) (x : Berth) : (s.setBerth c b x).mem = s.mem := rfl
@[simp] theorem State.setBerth_ctrl (s : State) (c b : Nat) (x : Berth) : (s.setBerth c b x).ctrl = s.ctrl := rfl
@[simp] theorem State.setBerth_fifo (s : State) (c b : Nat) (x : Berth) : (s.setBerth c b x).fifo = s.fifo := rfl
@[simp] theorem State.setBerth_launches (s : State) (c b : Nat) (x : Berth) : (s.setBerth c b x).launches = s.launches := rfl
@[simp] theorem State.setBerth_barriers (s : State) (c b : Nat) (x : Berth) : (s.setBerth c b x).barriers = s.barriers := rfl
@[simp] theorem State.setBerth_phases (s : State) (c b : Nat) (x : Berth) : (s.setBerth c b x).phases = s.phases := rfl
@[simp] theorem State.setBerth_contributions (s : State) (c b : Nat) (x : Berth) : (s.setBerth c b x).contributions = s.contributions := rfl
@[simp] theorem State.setBerth_reservations (s : State) (c b : Nat) (x : Berth) : (s.setBerth c b x).reservations = s.reservations := rfl
@[simp] theorem State.setBerth_raised (s : State) (c b : Nat) (x : Berth) : (s.setBerth c b x).raised = s.raised := rfl
@[simp] theorem State.setBerth_stamped (s : State) (c b : Nat) (x : Berth) : (s.setBerth c b x).stamped = s.stamped := rfl
@[simp] theorem State.setBerth_seq (s : State) (c b : Nat) (x : Berth) : (s.setBerth c b x).seq = s.seq := rfl
@[simp] theorem State.setBerth_evqArmed (s : State) (c b : Nat) (x : Berth) : (s.setBerth c b x).evqArmed = s.evqArmed := rfl
@[simp] theorem State.setBerth_evqMessages (s : State) (c b : Nat) (x : Berth) : (s.setBerth c b x).evqMessages = s.evqMessages := rfl
@[simp] theorem State.setBerth_readyDue (s : State) (c b : Nat) (x : Berth) : (s.setBerth c b x).readyDue = s.readyDue := rfl
@[simp] theorem State.setBerth_faults (s : State) (c b : Nat) (x : Berth) : (s.setBerth c b x).faults = s.faults := rfl
@[simp] theorem State.setBerth_accesses (s : State) (c b : Nat) (x : Berth) : (s.setBerth c b x).accesses = s.accesses := rfl
@[simp] theorem State.setBerth_commands (s : State) (c b : Nat) (x : Berth) : (s.setBerth c b x).commands = s.commands := rfl
@[simp] theorem State.setBerth_messages (s : State) (c b : Nat) (x : Berth) : (s.setBerth c b x).messages = s.messages := rfl
@[simp] theorem State.setBerth_writebacks (s : State) (c b : Nat) (x : Berth) : (s.setBerth c b x).writebacks = s.writebacks := rfl
@[simp] theorem State.setBerth_walks (s : State) (c b : Nat) (x : Berth) : (s.setBerth c b x).walks = s.walks := rfl
@[simp] theorem State.setBerth_migrations (s : State) (c b : Nat) (x : Berth) : (s.setBerth c b x).migrations = s.migrations := rfl
@[simp] theorem State.setBerth_refusedWrites (s : State) (c b : Nat) (x : Berth) : (s.setBerth c b x).refusedWrites = s.refusedWrites := rfl
@[simp] theorem State.setBerth_forced (s : State) (c b : Nat) (x : Berth) : (s.setBerth c b x).forced = s.forced := rfl
@[simp] theorem State.setBerth_accepted (s : State) (c b : Nat) (x : Berth) : (s.setBerth c b x).accepted = s.accepted := rfl
@[simp] theorem State.setBerth_tickets (s : State) (c b : Nat) (x : Berth) : (s.setBerth c b x).tickets = s.tickets := rfl
@[simp] theorem State.setBerth_susp (s : State) (c b : Nat) (x : Berth) : (s.setBerth c b x).susp = s.susp := rfl
@[simp] theorem State.setBerth_leases (s : State) (c b : Nat) (x : Berth) : (s.setBerth c b x).leases = s.leases := rfl
@[simp] theorem State.setBerth_records (s : State) (c b : Nat) (x : Berth) : (s.setBerth c b x).records = s.records := rfl
@[simp] theorem State.setBerth_capgen (s : State) (c b : Nat) (x : Berth) : (s.setBerth c b x).capgen = s.capgen := rfl
@[simp] theorem State.setBerth_bandsDue (s : State) (c b : Nat) (x : Berth) : (s.setBerth c b x).bandsDue = s.bandsDue := rfl
@[simp] theorem State.setBerth_scores (s : State) (c b : Nat) (x : Berth) : (s.setBerth c b x).scores = s.scores := rfl
@[simp] theorem State.setBerth_savedScores (s : State) (c b : Nat) (x : Berth) : (s.setBerth c b x).savedScores = s.savedScores := rfl
@[simp] theorem State.setBerth_seconds (s : State) (c b : Nat) (x : Berth) : (s.setBerth c b x).seconds = s.seconds := rfl
@[simp] theorem State.setBerth_remap (s : State) (c b : Nat) (x : Berth) : (s.setBerth c b x).remap = s.remap := rfl
@[simp] theorem State.setBerth_pins (s : State) (c b : Nat) (x : Berth) : (s.setBerth c b x).pins = s.pins := rfl
@[simp] theorem State.setBerth_floors (s : State) (c b : Nat) (x : Berth) : (s.setBerth c b x).floors = s.floors := rfl
@[simp] theorem State.setBerth_counters (s : State) (c b : Nat) (x : Berth) : (s.setBerth c b x).counters = s.counters := rfl
@[simp] theorem State.setBerth_windows (s : State) (c b : Nat) (x : Berth) : (s.setBerth c b x).windows = s.windows := rfl
@[simp] theorem State.setBerth_packets (s : State) (c b : Nat) (x : Berth) : (s.setBerth c b x).packets = s.packets := rfl
@[simp] theorem State.setBerth_windowQueue (s : State) (c b : Nat) (x : Berth) : (s.setBerth c b x).windowQueue = s.windowQueue := rfl
@[simp] theorem State.setBerth_sentAt (s : State) (c b : Nat) (x : Berth) : (s.setBerth c b x).sentAt = s.sentAt := rfl
@[simp] theorem State.setBerth_islands (s : State) (c b : Nat) (x : Berth) : (s.setBerth c b x).islands = s.islands := rfl
@[simp] theorem State.setBerth_spares (s : State) (c b : Nat) (x : Berth) : (s.setBerth c b x).spares = s.spares := rfl
@[simp] theorem State.setBerth_lines (s : State) (c b : Nat) (x : Berth) : (s.setBerth c b x).lines = s.lines := rfl
@[simp] theorem State.setBerth_sharers (s : State) (c b : Nat) (x : Berth) : (s.setBerth c b x).sharers = s.sharers := rfl
@[simp] theorem State.setBerth_sectors (s : State) (c b : Nat) (x : Berth) : (s.setBerth c b x).sectors = s.sectors := rfl
@[simp] theorem State.setBerth_uncached (s : State) (c b : Nat) (x : Berth) : (s.setBerth c b x).uncached = s.uncached := rfl
@[simp] theorem State.setBerth_corrected (s : State) (c b : Nat) (x : Berth) : (s.setBerth c b x).corrected = s.corrected := rfl
@[simp] theorem State.setBerth_ovf (s : State) (c b : Nat) (x : Berth) : (s.setBerth c b x).ovf = s.ovf := rfl
@[simp] theorem State.setBerth_hostReply (s : State) (c b : Nat) (x : Berth) : (s.setBerth c b x).hostReply = s.hostReply := rfl
@[simp] theorem State.setBerth_marked (s : State) (c b : Nat) (x : Berth) : (s.setBerth c b x).marked = s.marked := rfl
@[simp] theorem State.setBerth_toNotify (s : State) (c b : Nat) (x : Berth) : (s.setBerth c b x).toNotify = s.toNotify := rfl
@[simp] theorem State.setBerth_farPoison (s : State) (c b : Nat) (x : Berth) : (s.setBerth c b x).farPoison = s.farPoison := rfl
@[simp] theorem State.setBerth_resends (s : State) (c b : Nat) (x : Berth) : (s.setBerth c b x).resends = s.resends := rfl
@[simp] theorem State.setBerth_stalledRows (s : State) (c b : Nat) (x : Berth) : (s.setBerth c b x).stalledRows = s.stalledRows := rfl
@[simp] theorem State.setBerth_iss (s : State) (c b : Nat) (x : Berth) : (s.setBerth c b x).iss = s.iss := rfl
@[simp] theorem State.setBerth_agenda (s : State) (c b : Nat) (x : Berth) : (s.setBerth c b x).agenda = s.agenda := rfl
@[simp] theorem State.setBerth_turn (s : State) (c b : Nat) (x : Berth) : (s.setBerth c b x).turn = s.turn := rfl
@[simp] theorem State.setBerth_now (s : State) (c b : Nat) (x : Berth) : (s.setBerth c b x).now = s.now := rfl
@[simp] theorem State.setBerth_stamp (s : State) (c b : Nat) (x : Berth) : (s.setBerth c b x).stamp = s.stamp := rfl
@[simp] theorem State.setBerth_off (s : State) (c b : Nat) (x : Berth) : (s.setBerth c b x).off = s.off := rfl

/-! ### The fields after onBerth -/

@[simp] theorem State.onBerth_clusters (s : State) (c b : Nat) (f : Berth → Berth) : (s.onBerth c b f).clusters = s.clusters := rfl
@[simp] theorem State.onBerth_mem (s : State) (c b : Nat) (f : Berth → Berth) : (s.onBerth c b f).mem = s.mem := rfl
@[simp] theorem State.onBerth_ctrl (s : State) (c b : Nat) (f : Berth → Berth) : (s.onBerth c b f).ctrl = s.ctrl := rfl
@[simp] theorem State.onBerth_fifo (s : State) (c b : Nat) (f : Berth → Berth) : (s.onBerth c b f).fifo = s.fifo := rfl
@[simp] theorem State.onBerth_launches (s : State) (c b : Nat) (f : Berth → Berth) : (s.onBerth c b f).launches = s.launches := rfl
@[simp] theorem State.onBerth_barriers (s : State) (c b : Nat) (f : Berth → Berth) : (s.onBerth c b f).barriers = s.barriers := rfl
@[simp] theorem State.onBerth_phases (s : State) (c b : Nat) (f : Berth → Berth) : (s.onBerth c b f).phases = s.phases := rfl
@[simp] theorem State.onBerth_contributions (s : State) (c b : Nat) (f : Berth → Berth) : (s.onBerth c b f).contributions = s.contributions := rfl
@[simp] theorem State.onBerth_reservations (s : State) (c b : Nat) (f : Berth → Berth) : (s.onBerth c b f).reservations = s.reservations := rfl
@[simp] theorem State.onBerth_raised (s : State) (c b : Nat) (f : Berth → Berth) : (s.onBerth c b f).raised = s.raised := rfl
@[simp] theorem State.onBerth_stamped (s : State) (c b : Nat) (f : Berth → Berth) : (s.onBerth c b f).stamped = s.stamped := rfl
@[simp] theorem State.onBerth_seq (s : State) (c b : Nat) (f : Berth → Berth) : (s.onBerth c b f).seq = s.seq := rfl
@[simp] theorem State.onBerth_evqArmed (s : State) (c b : Nat) (f : Berth → Berth) : (s.onBerth c b f).evqArmed = s.evqArmed := rfl
@[simp] theorem State.onBerth_evqMessages (s : State) (c b : Nat) (f : Berth → Berth) : (s.onBerth c b f).evqMessages = s.evqMessages := rfl
@[simp] theorem State.onBerth_readyDue (s : State) (c b : Nat) (f : Berth → Berth) : (s.onBerth c b f).readyDue = s.readyDue := rfl
@[simp] theorem State.onBerth_faults (s : State) (c b : Nat) (f : Berth → Berth) : (s.onBerth c b f).faults = s.faults := rfl
@[simp] theorem State.onBerth_accesses (s : State) (c b : Nat) (f : Berth → Berth) : (s.onBerth c b f).accesses = s.accesses := rfl
@[simp] theorem State.onBerth_commands (s : State) (c b : Nat) (f : Berth → Berth) : (s.onBerth c b f).commands = s.commands := rfl
@[simp] theorem State.onBerth_messages (s : State) (c b : Nat) (f : Berth → Berth) : (s.onBerth c b f).messages = s.messages := rfl
@[simp] theorem State.onBerth_writebacks (s : State) (c b : Nat) (f : Berth → Berth) : (s.onBerth c b f).writebacks = s.writebacks := rfl
@[simp] theorem State.onBerth_walks (s : State) (c b : Nat) (f : Berth → Berth) : (s.onBerth c b f).walks = s.walks := rfl
@[simp] theorem State.onBerth_migrations (s : State) (c b : Nat) (f : Berth → Berth) : (s.onBerth c b f).migrations = s.migrations := rfl
@[simp] theorem State.onBerth_refusedWrites (s : State) (c b : Nat) (f : Berth → Berth) : (s.onBerth c b f).refusedWrites = s.refusedWrites := rfl
@[simp] theorem State.onBerth_forced (s : State) (c b : Nat) (f : Berth → Berth) : (s.onBerth c b f).forced = s.forced := rfl
@[simp] theorem State.onBerth_accepted (s : State) (c b : Nat) (f : Berth → Berth) : (s.onBerth c b f).accepted = s.accepted := rfl
@[simp] theorem State.onBerth_tickets (s : State) (c b : Nat) (f : Berth → Berth) : (s.onBerth c b f).tickets = s.tickets := rfl
@[simp] theorem State.onBerth_susp (s : State) (c b : Nat) (f : Berth → Berth) : (s.onBerth c b f).susp = s.susp := rfl
@[simp] theorem State.onBerth_leases (s : State) (c b : Nat) (f : Berth → Berth) : (s.onBerth c b f).leases = s.leases := rfl
@[simp] theorem State.onBerth_records (s : State) (c b : Nat) (f : Berth → Berth) : (s.onBerth c b f).records = s.records := rfl
@[simp] theorem State.onBerth_capgen (s : State) (c b : Nat) (f : Berth → Berth) : (s.onBerth c b f).capgen = s.capgen := rfl
@[simp] theorem State.onBerth_bandsDue (s : State) (c b : Nat) (f : Berth → Berth) : (s.onBerth c b f).bandsDue = s.bandsDue := rfl
@[simp] theorem State.onBerth_scores (s : State) (c b : Nat) (f : Berth → Berth) : (s.onBerth c b f).scores = s.scores := rfl
@[simp] theorem State.onBerth_savedScores (s : State) (c b : Nat) (f : Berth → Berth) : (s.onBerth c b f).savedScores = s.savedScores := rfl
@[simp] theorem State.onBerth_seconds (s : State) (c b : Nat) (f : Berth → Berth) : (s.onBerth c b f).seconds = s.seconds := rfl
@[simp] theorem State.onBerth_remap (s : State) (c b : Nat) (f : Berth → Berth) : (s.onBerth c b f).remap = s.remap := rfl
@[simp] theorem State.onBerth_pins (s : State) (c b : Nat) (f : Berth → Berth) : (s.onBerth c b f).pins = s.pins := rfl
@[simp] theorem State.onBerth_floors (s : State) (c b : Nat) (f : Berth → Berth) : (s.onBerth c b f).floors = s.floors := rfl
@[simp] theorem State.onBerth_counters (s : State) (c b : Nat) (f : Berth → Berth) : (s.onBerth c b f).counters = s.counters := rfl
@[simp] theorem State.onBerth_windows (s : State) (c b : Nat) (f : Berth → Berth) : (s.onBerth c b f).windows = s.windows := rfl
@[simp] theorem State.onBerth_packets (s : State) (c b : Nat) (f : Berth → Berth) : (s.onBerth c b f).packets = s.packets := rfl
@[simp] theorem State.onBerth_windowQueue (s : State) (c b : Nat) (f : Berth → Berth) : (s.onBerth c b f).windowQueue = s.windowQueue := rfl
@[simp] theorem State.onBerth_sentAt (s : State) (c b : Nat) (f : Berth → Berth) : (s.onBerth c b f).sentAt = s.sentAt := rfl
@[simp] theorem State.onBerth_islands (s : State) (c b : Nat) (f : Berth → Berth) : (s.onBerth c b f).islands = s.islands := rfl
@[simp] theorem State.onBerth_spares (s : State) (c b : Nat) (f : Berth → Berth) : (s.onBerth c b f).spares = s.spares := rfl
@[simp] theorem State.onBerth_lines (s : State) (c b : Nat) (f : Berth → Berth) : (s.onBerth c b f).lines = s.lines := rfl
@[simp] theorem State.onBerth_sharers (s : State) (c b : Nat) (f : Berth → Berth) : (s.onBerth c b f).sharers = s.sharers := rfl
@[simp] theorem State.onBerth_sectors (s : State) (c b : Nat) (f : Berth → Berth) : (s.onBerth c b f).sectors = s.sectors := rfl
@[simp] theorem State.onBerth_uncached (s : State) (c b : Nat) (f : Berth → Berth) : (s.onBerth c b f).uncached = s.uncached := rfl
@[simp] theorem State.onBerth_corrected (s : State) (c b : Nat) (f : Berth → Berth) : (s.onBerth c b f).corrected = s.corrected := rfl
@[simp] theorem State.onBerth_ovf (s : State) (c b : Nat) (f : Berth → Berth) : (s.onBerth c b f).ovf = s.ovf := rfl
@[simp] theorem State.onBerth_hostReply (s : State) (c b : Nat) (f : Berth → Berth) : (s.onBerth c b f).hostReply = s.hostReply := rfl
@[simp] theorem State.onBerth_marked (s : State) (c b : Nat) (f : Berth → Berth) : (s.onBerth c b f).marked = s.marked := rfl
@[simp] theorem State.onBerth_toNotify (s : State) (c b : Nat) (f : Berth → Berth) : (s.onBerth c b f).toNotify = s.toNotify := rfl
@[simp] theorem State.onBerth_farPoison (s : State) (c b : Nat) (f : Berth → Berth) : (s.onBerth c b f).farPoison = s.farPoison := rfl
@[simp] theorem State.onBerth_resends (s : State) (c b : Nat) (f : Berth → Berth) : (s.onBerth c b f).resends = s.resends := rfl
@[simp] theorem State.onBerth_stalledRows (s : State) (c b : Nat) (f : Berth → Berth) : (s.onBerth c b f).stalledRows = s.stalledRows := rfl
@[simp] theorem State.onBerth_iss (s : State) (c b : Nat) (f : Berth → Berth) : (s.onBerth c b f).iss = s.iss := rfl
@[simp] theorem State.onBerth_agenda (s : State) (c b : Nat) (f : Berth → Berth) : (s.onBerth c b f).agenda = s.agenda := rfl
@[simp] theorem State.onBerth_turn (s : State) (c b : Nat) (f : Berth → Berth) : (s.onBerth c b f).turn = s.turn := rfl
@[simp] theorem State.onBerth_now (s : State) (c b : Nat) (f : Berth → Berth) : (s.onBerth c b f).now = s.now := rfl
@[simp] theorem State.onBerth_stamp (s : State) (c b : Nat) (f : Berth → Berth) : (s.onBerth c b f).stamp = s.stamp := rfl
@[simp] theorem State.onBerth_off (s : State) (c b : Nat) (f : Berth → Berth) : (s.onBerth c b f).off = s.off := rfl

/-! ### The fields after onMe -/

@[simp] theorem State.onMe_clusters (s : State) (f : Berth → Berth) : (s.onMe f).clusters = s.clusters := rfl
@[simp] theorem State.onMe_mem (s : State) (f : Berth → Berth) : (s.onMe f).mem = s.mem := rfl
@[simp] theorem State.onMe_ctrl (s : State) (f : Berth → Berth) : (s.onMe f).ctrl = s.ctrl := rfl
@[simp] theorem State.onMe_fifo (s : State) (f : Berth → Berth) : (s.onMe f).fifo = s.fifo := rfl
@[simp] theorem State.onMe_launches (s : State) (f : Berth → Berth) : (s.onMe f).launches = s.launches := rfl
@[simp] theorem State.onMe_barriers (s : State) (f : Berth → Berth) : (s.onMe f).barriers = s.barriers := rfl
@[simp] theorem State.onMe_phases (s : State) (f : Berth → Berth) : (s.onMe f).phases = s.phases := rfl
@[simp] theorem State.onMe_contributions (s : State) (f : Berth → Berth) : (s.onMe f).contributions = s.contributions := rfl
@[simp] theorem State.onMe_reservations (s : State) (f : Berth → Berth) : (s.onMe f).reservations = s.reservations := rfl
@[simp] theorem State.onMe_raised (s : State) (f : Berth → Berth) : (s.onMe f).raised = s.raised := rfl
@[simp] theorem State.onMe_stamped (s : State) (f : Berth → Berth) : (s.onMe f).stamped = s.stamped := rfl
@[simp] theorem State.onMe_seq (s : State) (f : Berth → Berth) : (s.onMe f).seq = s.seq := rfl
@[simp] theorem State.onMe_evqArmed (s : State) (f : Berth → Berth) : (s.onMe f).evqArmed = s.evqArmed := rfl
@[simp] theorem State.onMe_evqMessages (s : State) (f : Berth → Berth) : (s.onMe f).evqMessages = s.evqMessages := rfl
@[simp] theorem State.onMe_readyDue (s : State) (f : Berth → Berth) : (s.onMe f).readyDue = s.readyDue := rfl
@[simp] theorem State.onMe_faults (s : State) (f : Berth → Berth) : (s.onMe f).faults = s.faults := rfl
@[simp] theorem State.onMe_accesses (s : State) (f : Berth → Berth) : (s.onMe f).accesses = s.accesses := rfl
@[simp] theorem State.onMe_commands (s : State) (f : Berth → Berth) : (s.onMe f).commands = s.commands := rfl
@[simp] theorem State.onMe_messages (s : State) (f : Berth → Berth) : (s.onMe f).messages = s.messages := rfl
@[simp] theorem State.onMe_writebacks (s : State) (f : Berth → Berth) : (s.onMe f).writebacks = s.writebacks := rfl
@[simp] theorem State.onMe_walks (s : State) (f : Berth → Berth) : (s.onMe f).walks = s.walks := rfl
@[simp] theorem State.onMe_migrations (s : State) (f : Berth → Berth) : (s.onMe f).migrations = s.migrations := rfl
@[simp] theorem State.onMe_refusedWrites (s : State) (f : Berth → Berth) : (s.onMe f).refusedWrites = s.refusedWrites := rfl
@[simp] theorem State.onMe_forced (s : State) (f : Berth → Berth) : (s.onMe f).forced = s.forced := rfl
@[simp] theorem State.onMe_accepted (s : State) (f : Berth → Berth) : (s.onMe f).accepted = s.accepted := rfl
@[simp] theorem State.onMe_tickets (s : State) (f : Berth → Berth) : (s.onMe f).tickets = s.tickets := rfl
@[simp] theorem State.onMe_susp (s : State) (f : Berth → Berth) : (s.onMe f).susp = s.susp := rfl
@[simp] theorem State.onMe_leases (s : State) (f : Berth → Berth) : (s.onMe f).leases = s.leases := rfl
@[simp] theorem State.onMe_records (s : State) (f : Berth → Berth) : (s.onMe f).records = s.records := rfl
@[simp] theorem State.onMe_capgen (s : State) (f : Berth → Berth) : (s.onMe f).capgen = s.capgen := rfl
@[simp] theorem State.onMe_bandsDue (s : State) (f : Berth → Berth) : (s.onMe f).bandsDue = s.bandsDue := rfl
@[simp] theorem State.onMe_scores (s : State) (f : Berth → Berth) : (s.onMe f).scores = s.scores := rfl
@[simp] theorem State.onMe_savedScores (s : State) (f : Berth → Berth) : (s.onMe f).savedScores = s.savedScores := rfl
@[simp] theorem State.onMe_seconds (s : State) (f : Berth → Berth) : (s.onMe f).seconds = s.seconds := rfl
@[simp] theorem State.onMe_remap (s : State) (f : Berth → Berth) : (s.onMe f).remap = s.remap := rfl
@[simp] theorem State.onMe_pins (s : State) (f : Berth → Berth) : (s.onMe f).pins = s.pins := rfl
@[simp] theorem State.onMe_floors (s : State) (f : Berth → Berth) : (s.onMe f).floors = s.floors := rfl
@[simp] theorem State.onMe_counters (s : State) (f : Berth → Berth) : (s.onMe f).counters = s.counters := rfl
@[simp] theorem State.onMe_windows (s : State) (f : Berth → Berth) : (s.onMe f).windows = s.windows := rfl
@[simp] theorem State.onMe_packets (s : State) (f : Berth → Berth) : (s.onMe f).packets = s.packets := rfl
@[simp] theorem State.onMe_windowQueue (s : State) (f : Berth → Berth) : (s.onMe f).windowQueue = s.windowQueue := rfl
@[simp] theorem State.onMe_sentAt (s : State) (f : Berth → Berth) : (s.onMe f).sentAt = s.sentAt := rfl
@[simp] theorem State.onMe_islands (s : State) (f : Berth → Berth) : (s.onMe f).islands = s.islands := rfl
@[simp] theorem State.onMe_spares (s : State) (f : Berth → Berth) : (s.onMe f).spares = s.spares := rfl
@[simp] theorem State.onMe_lines (s : State) (f : Berth → Berth) : (s.onMe f).lines = s.lines := rfl
@[simp] theorem State.onMe_sharers (s : State) (f : Berth → Berth) : (s.onMe f).sharers = s.sharers := rfl
@[simp] theorem State.onMe_sectors (s : State) (f : Berth → Berth) : (s.onMe f).sectors = s.sectors := rfl
@[simp] theorem State.onMe_uncached (s : State) (f : Berth → Berth) : (s.onMe f).uncached = s.uncached := rfl
@[simp] theorem State.onMe_corrected (s : State) (f : Berth → Berth) : (s.onMe f).corrected = s.corrected := rfl
@[simp] theorem State.onMe_ovf (s : State) (f : Berth → Berth) : (s.onMe f).ovf = s.ovf := rfl
@[simp] theorem State.onMe_hostReply (s : State) (f : Berth → Berth) : (s.onMe f).hostReply = s.hostReply := rfl
@[simp] theorem State.onMe_marked (s : State) (f : Berth → Berth) : (s.onMe f).marked = s.marked := rfl
@[simp] theorem State.onMe_toNotify (s : State) (f : Berth → Berth) : (s.onMe f).toNotify = s.toNotify := rfl
@[simp] theorem State.onMe_farPoison (s : State) (f : Berth → Berth) : (s.onMe f).farPoison = s.farPoison := rfl
@[simp] theorem State.onMe_resends (s : State) (f : Berth → Berth) : (s.onMe f).resends = s.resends := rfl
@[simp] theorem State.onMe_stalledRows (s : State) (f : Berth → Berth) : (s.onMe f).stalledRows = s.stalledRows := rfl
@[simp] theorem State.onMe_iss (s : State) (f : Berth → Berth) : (s.onMe f).iss = s.iss := rfl
@[simp] theorem State.onMe_agenda (s : State) (f : Berth → Berth) : (s.onMe f).agenda = s.agenda := rfl
@[simp] theorem State.onMe_turn (s : State) (f : Berth → Berth) : (s.onMe f).turn = s.turn := rfl
@[simp] theorem State.onMe_now (s : State) (f : Berth → Berth) : (s.onMe f).now = s.now := rfl
@[simp] theorem State.onMe_stamp (s : State) (f : Berth → Berth) : (s.onMe f).stamp = s.stamp := rfl
@[simp] theorem State.onMe_off (s : State) (f : Berth → Berth) : (s.onMe f).off = s.off := rfl

/-! ### The fields after onRegs -/

@[simp] theorem State.onRegs_clusters (s : State) (f : Regs → Regs) : (s.onRegs f).clusters = s.clusters := rfl
@[simp] theorem State.onRegs_mem (s : State) (f : Regs → Regs) : (s.onRegs f).mem = s.mem := rfl
@[simp] theorem State.onRegs_ctrl (s : State) (f : Regs → Regs) : (s.onRegs f).ctrl = s.ctrl := rfl
@[simp] theorem State.onRegs_fifo (s : State) (f : Regs → Regs) : (s.onRegs f).fifo = s.fifo := rfl
@[simp] theorem State.onRegs_launches (s : State) (f : Regs → Regs) : (s.onRegs f).launches = s.launches := rfl
@[simp] theorem State.onRegs_barriers (s : State) (f : Regs → Regs) : (s.onRegs f).barriers = s.barriers := rfl
@[simp] theorem State.onRegs_phases (s : State) (f : Regs → Regs) : (s.onRegs f).phases = s.phases := rfl
@[simp] theorem State.onRegs_contributions (s : State) (f : Regs → Regs) : (s.onRegs f).contributions = s.contributions := rfl
@[simp] theorem State.onRegs_reservations (s : State) (f : Regs → Regs) : (s.onRegs f).reservations = s.reservations := rfl
@[simp] theorem State.onRegs_raised (s : State) (f : Regs → Regs) : (s.onRegs f).raised = s.raised := rfl
@[simp] theorem State.onRegs_stamped (s : State) (f : Regs → Regs) : (s.onRegs f).stamped = s.stamped := rfl
@[simp] theorem State.onRegs_seq (s : State) (f : Regs → Regs) : (s.onRegs f).seq = s.seq := rfl
@[simp] theorem State.onRegs_evqArmed (s : State) (f : Regs → Regs) : (s.onRegs f).evqArmed = s.evqArmed := rfl
@[simp] theorem State.onRegs_evqMessages (s : State) (f : Regs → Regs) : (s.onRegs f).evqMessages = s.evqMessages := rfl
@[simp] theorem State.onRegs_readyDue (s : State) (f : Regs → Regs) : (s.onRegs f).readyDue = s.readyDue := rfl
@[simp] theorem State.onRegs_faults (s : State) (f : Regs → Regs) : (s.onRegs f).faults = s.faults := rfl
@[simp] theorem State.onRegs_accesses (s : State) (f : Regs → Regs) : (s.onRegs f).accesses = s.accesses := rfl
@[simp] theorem State.onRegs_commands (s : State) (f : Regs → Regs) : (s.onRegs f).commands = s.commands := rfl
@[simp] theorem State.onRegs_messages (s : State) (f : Regs → Regs) : (s.onRegs f).messages = s.messages := rfl
@[simp] theorem State.onRegs_writebacks (s : State) (f : Regs → Regs) : (s.onRegs f).writebacks = s.writebacks := rfl
@[simp] theorem State.onRegs_walks (s : State) (f : Regs → Regs) : (s.onRegs f).walks = s.walks := rfl
@[simp] theorem State.onRegs_migrations (s : State) (f : Regs → Regs) : (s.onRegs f).migrations = s.migrations := rfl
@[simp] theorem State.onRegs_refusedWrites (s : State) (f : Regs → Regs) : (s.onRegs f).refusedWrites = s.refusedWrites := rfl
@[simp] theorem State.onRegs_forced (s : State) (f : Regs → Regs) : (s.onRegs f).forced = s.forced := rfl
@[simp] theorem State.onRegs_accepted (s : State) (f : Regs → Regs) : (s.onRegs f).accepted = s.accepted := rfl
@[simp] theorem State.onRegs_tickets (s : State) (f : Regs → Regs) : (s.onRegs f).tickets = s.tickets := rfl
@[simp] theorem State.onRegs_susp (s : State) (f : Regs → Regs) : (s.onRegs f).susp = s.susp := rfl
@[simp] theorem State.onRegs_leases (s : State) (f : Regs → Regs) : (s.onRegs f).leases = s.leases := rfl
@[simp] theorem State.onRegs_records (s : State) (f : Regs → Regs) : (s.onRegs f).records = s.records := rfl
@[simp] theorem State.onRegs_capgen (s : State) (f : Regs → Regs) : (s.onRegs f).capgen = s.capgen := rfl
@[simp] theorem State.onRegs_bandsDue (s : State) (f : Regs → Regs) : (s.onRegs f).bandsDue = s.bandsDue := rfl
@[simp] theorem State.onRegs_scores (s : State) (f : Regs → Regs) : (s.onRegs f).scores = s.scores := rfl
@[simp] theorem State.onRegs_savedScores (s : State) (f : Regs → Regs) : (s.onRegs f).savedScores = s.savedScores := rfl
@[simp] theorem State.onRegs_seconds (s : State) (f : Regs → Regs) : (s.onRegs f).seconds = s.seconds := rfl
@[simp] theorem State.onRegs_remap (s : State) (f : Regs → Regs) : (s.onRegs f).remap = s.remap := rfl
@[simp] theorem State.onRegs_pins (s : State) (f : Regs → Regs) : (s.onRegs f).pins = s.pins := rfl
@[simp] theorem State.onRegs_floors (s : State) (f : Regs → Regs) : (s.onRegs f).floors = s.floors := rfl
@[simp] theorem State.onRegs_counters (s : State) (f : Regs → Regs) : (s.onRegs f).counters = s.counters := rfl
@[simp] theorem State.onRegs_windows (s : State) (f : Regs → Regs) : (s.onRegs f).windows = s.windows := rfl
@[simp] theorem State.onRegs_packets (s : State) (f : Regs → Regs) : (s.onRegs f).packets = s.packets := rfl
@[simp] theorem State.onRegs_windowQueue (s : State) (f : Regs → Regs) : (s.onRegs f).windowQueue = s.windowQueue := rfl
@[simp] theorem State.onRegs_sentAt (s : State) (f : Regs → Regs) : (s.onRegs f).sentAt = s.sentAt := rfl
@[simp] theorem State.onRegs_islands (s : State) (f : Regs → Regs) : (s.onRegs f).islands = s.islands := rfl
@[simp] theorem State.onRegs_spares (s : State) (f : Regs → Regs) : (s.onRegs f).spares = s.spares := rfl
@[simp] theorem State.onRegs_lines (s : State) (f : Regs → Regs) : (s.onRegs f).lines = s.lines := rfl
@[simp] theorem State.onRegs_sharers (s : State) (f : Regs → Regs) : (s.onRegs f).sharers = s.sharers := rfl
@[simp] theorem State.onRegs_sectors (s : State) (f : Regs → Regs) : (s.onRegs f).sectors = s.sectors := rfl
@[simp] theorem State.onRegs_uncached (s : State) (f : Regs → Regs) : (s.onRegs f).uncached = s.uncached := rfl
@[simp] theorem State.onRegs_corrected (s : State) (f : Regs → Regs) : (s.onRegs f).corrected = s.corrected := rfl
@[simp] theorem State.onRegs_ovf (s : State) (f : Regs → Regs) : (s.onRegs f).ovf = s.ovf := rfl
@[simp] theorem State.onRegs_hostReply (s : State) (f : Regs → Regs) : (s.onRegs f).hostReply = s.hostReply := rfl
@[simp] theorem State.onRegs_marked (s : State) (f : Regs → Regs) : (s.onRegs f).marked = s.marked := rfl
@[simp] theorem State.onRegs_toNotify (s : State) (f : Regs → Regs) : (s.onRegs f).toNotify = s.toNotify := rfl
@[simp] theorem State.onRegs_farPoison (s : State) (f : Regs → Regs) : (s.onRegs f).farPoison = s.farPoison := rfl
@[simp] theorem State.onRegs_resends (s : State) (f : Regs → Regs) : (s.onRegs f).resends = s.resends := rfl
@[simp] theorem State.onRegs_stalledRows (s : State) (f : Regs → Regs) : (s.onRegs f).stalledRows = s.stalledRows := rfl
@[simp] theorem State.onRegs_iss (s : State) (f : Regs → Regs) : (s.onRegs f).iss = s.iss := rfl
@[simp] theorem State.onRegs_agenda (s : State) (f : Regs → Regs) : (s.onRegs f).agenda = s.agenda := rfl
@[simp] theorem State.onRegs_turn (s : State) (f : Regs → Regs) : (s.onRegs f).turn = s.turn := rfl
@[simp] theorem State.onRegs_now (s : State) (f : Regs → Regs) : (s.onRegs f).now = s.now := rfl
@[simp] theorem State.onRegs_stamp (s : State) (f : Regs → Regs) : (s.onRegs f).stamp = s.stamp := rfl
@[simp] theorem State.onRegs_off (s : State) (f : Regs → Regs) : (s.onRegs f).off = s.off := rfl

/-! ### The fields after later -/

@[simp] theorem State.later_cores (s : State) (i : Instr) : (s.later i).cores = s.cores := rfl
@[simp] theorem State.later_clusters (s : State) (i : Instr) : (s.later i).clusters = s.clusters := rfl
@[simp] theorem State.later_mem (s : State) (i : Instr) : (s.later i).mem = s.mem := rfl
@[simp] theorem State.later_ctrl (s : State) (i : Instr) : (s.later i).ctrl = s.ctrl := rfl
@[simp] theorem State.later_fifo (s : State) (i : Instr) : (s.later i).fifo = s.fifo := rfl
@[simp] theorem State.later_launches (s : State) (i : Instr) : (s.later i).launches = s.launches := rfl
@[simp] theorem State.later_barriers (s : State) (i : Instr) : (s.later i).barriers = s.barriers := rfl
@[simp] theorem State.later_phases (s : State) (i : Instr) : (s.later i).phases = s.phases := rfl
@[simp] theorem State.later_contributions (s : State) (i : Instr) : (s.later i).contributions = s.contributions := rfl
@[simp] theorem State.later_reservations (s : State) (i : Instr) : (s.later i).reservations = s.reservations := rfl
@[simp] theorem State.later_raised (s : State) (i : Instr) : (s.later i).raised = s.raised := rfl
@[simp] theorem State.later_stamped (s : State) (i : Instr) : (s.later i).stamped = s.stamped := rfl
@[simp] theorem State.later_seq (s : State) (i : Instr) : (s.later i).seq = s.seq := rfl
@[simp] theorem State.later_evqArmed (s : State) (i : Instr) : (s.later i).evqArmed = s.evqArmed := rfl
@[simp] theorem State.later_evqMessages (s : State) (i : Instr) : (s.later i).evqMessages = s.evqMessages := rfl
@[simp] theorem State.later_readyDue (s : State) (i : Instr) : (s.later i).readyDue = s.readyDue := rfl
@[simp] theorem State.later_faults (s : State) (i : Instr) : (s.later i).faults = s.faults := rfl
@[simp] theorem State.later_accesses (s : State) (i : Instr) : (s.later i).accesses = s.accesses := rfl
@[simp] theorem State.later_commands (s : State) (i : Instr) : (s.later i).commands = s.commands := rfl
@[simp] theorem State.later_messages (s : State) (i : Instr) : (s.later i).messages = s.messages := rfl
@[simp] theorem State.later_writebacks (s : State) (i : Instr) : (s.later i).writebacks = s.writebacks := rfl
@[simp] theorem State.later_walks (s : State) (i : Instr) : (s.later i).walks = s.walks := rfl
@[simp] theorem State.later_migrations (s : State) (i : Instr) : (s.later i).migrations = s.migrations := rfl
@[simp] theorem State.later_refusedWrites (s : State) (i : Instr) : (s.later i).refusedWrites = s.refusedWrites := rfl
@[simp] theorem State.later_forced (s : State) (i : Instr) : (s.later i).forced = s.forced := rfl
@[simp] theorem State.later_accepted (s : State) (i : Instr) : (s.later i).accepted = s.accepted := rfl
@[simp] theorem State.later_tickets (s : State) (i : Instr) : (s.later i).tickets = s.tickets := rfl
@[simp] theorem State.later_susp (s : State) (i : Instr) : (s.later i).susp = s.susp := rfl
@[simp] theorem State.later_leases (s : State) (i : Instr) : (s.later i).leases = s.leases := rfl
@[simp] theorem State.later_records (s : State) (i : Instr) : (s.later i).records = s.records := rfl
@[simp] theorem State.later_capgen (s : State) (i : Instr) : (s.later i).capgen = s.capgen := rfl
@[simp] theorem State.later_bandsDue (s : State) (i : Instr) : (s.later i).bandsDue = s.bandsDue := rfl
@[simp] theorem State.later_scores (s : State) (i : Instr) : (s.later i).scores = s.scores := rfl
@[simp] theorem State.later_savedScores (s : State) (i : Instr) : (s.later i).savedScores = s.savedScores := rfl
@[simp] theorem State.later_seconds (s : State) (i : Instr) : (s.later i).seconds = s.seconds := rfl
@[simp] theorem State.later_remap (s : State) (i : Instr) : (s.later i).remap = s.remap := rfl
@[simp] theorem State.later_pins (s : State) (i : Instr) : (s.later i).pins = s.pins := rfl
@[simp] theorem State.later_floors (s : State) (i : Instr) : (s.later i).floors = s.floors := rfl
@[simp] theorem State.later_counters (s : State) (i : Instr) : (s.later i).counters = s.counters := rfl
@[simp] theorem State.later_windows (s : State) (i : Instr) : (s.later i).windows = s.windows := rfl
@[simp] theorem State.later_packets (s : State) (i : Instr) : (s.later i).packets = s.packets := rfl
@[simp] theorem State.later_windowQueue (s : State) (i : Instr) : (s.later i).windowQueue = s.windowQueue := rfl
@[simp] theorem State.later_sentAt (s : State) (i : Instr) : (s.later i).sentAt = s.sentAt := rfl
@[simp] theorem State.later_islands (s : State) (i : Instr) : (s.later i).islands = s.islands := rfl
@[simp] theorem State.later_spares (s : State) (i : Instr) : (s.later i).spares = s.spares := rfl
@[simp] theorem State.later_lines (s : State) (i : Instr) : (s.later i).lines = s.lines := rfl
@[simp] theorem State.later_sharers (s : State) (i : Instr) : (s.later i).sharers = s.sharers := rfl
@[simp] theorem State.later_sectors (s : State) (i : Instr) : (s.later i).sectors = s.sectors := rfl
@[simp] theorem State.later_uncached (s : State) (i : Instr) : (s.later i).uncached = s.uncached := rfl
@[simp] theorem State.later_corrected (s : State) (i : Instr) : (s.later i).corrected = s.corrected := rfl
@[simp] theorem State.later_ovf (s : State) (i : Instr) : (s.later i).ovf = s.ovf := rfl
@[simp] theorem State.later_hostReply (s : State) (i : Instr) : (s.later i).hostReply = s.hostReply := rfl
@[simp] theorem State.later_marked (s : State) (i : Instr) : (s.later i).marked = s.marked := rfl
@[simp] theorem State.later_toNotify (s : State) (i : Instr) : (s.later i).toNotify = s.toNotify := rfl
@[simp] theorem State.later_farPoison (s : State) (i : Instr) : (s.later i).farPoison = s.farPoison := rfl
@[simp] theorem State.later_resends (s : State) (i : Instr) : (s.later i).resends = s.resends := rfl
@[simp] theorem State.later_stalledRows (s : State) (i : Instr) : (s.later i).stalledRows = s.stalledRows := rfl
@[simp] theorem State.later_iss (s : State) (i : Instr) : (s.later i).iss = s.iss := rfl
@[simp] theorem State.later_turn (s : State) (i : Instr) : (s.later i).turn = s.turn := rfl
@[simp] theorem State.later_now (s : State) (i : Instr) : (s.later i).now = s.now := rfl
@[simp] theorem State.later_stamp (s : State) (i : Instr) : (s.later i).stamp = s.stamp := rfl
@[simp] theorem State.later_off (s : State) (i : Instr) : (s.later i).off = s.off := rfl

/-! ### The fields after bump -/

@[simp] theorem State.bump_cores (s : State) : (s.bump).cores = s.cores := rfl
@[simp] theorem State.bump_clusters (s : State) : (s.bump).clusters = s.clusters := rfl
@[simp] theorem State.bump_mem (s : State) : (s.bump).mem = s.mem := rfl
@[simp] theorem State.bump_ctrl (s : State) : (s.bump).ctrl = s.ctrl := rfl
@[simp] theorem State.bump_fifo (s : State) : (s.bump).fifo = s.fifo := rfl
@[simp] theorem State.bump_launches (s : State) : (s.bump).launches = s.launches := rfl
@[simp] theorem State.bump_barriers (s : State) : (s.bump).barriers = s.barriers := rfl
@[simp] theorem State.bump_phases (s : State) : (s.bump).phases = s.phases := rfl
@[simp] theorem State.bump_contributions (s : State) : (s.bump).contributions = s.contributions := rfl
@[simp] theorem State.bump_reservations (s : State) : (s.bump).reservations = s.reservations := rfl
@[simp] theorem State.bump_raised (s : State) : (s.bump).raised = s.raised := rfl
@[simp] theorem State.bump_stamped (s : State) : (s.bump).stamped = s.stamped := rfl
@[simp] theorem State.bump_seq (s : State) : (s.bump).seq = s.seq := rfl
@[simp] theorem State.bump_evqArmed (s : State) : (s.bump).evqArmed = s.evqArmed := rfl
@[simp] theorem State.bump_evqMessages (s : State) : (s.bump).evqMessages = s.evqMessages := rfl
@[simp] theorem State.bump_readyDue (s : State) : (s.bump).readyDue = s.readyDue := rfl
@[simp] theorem State.bump_faults (s : State) : (s.bump).faults = s.faults := rfl
@[simp] theorem State.bump_accesses (s : State) : (s.bump).accesses = s.accesses := rfl
@[simp] theorem State.bump_commands (s : State) : (s.bump).commands = s.commands := rfl
@[simp] theorem State.bump_messages (s : State) : (s.bump).messages = s.messages := rfl
@[simp] theorem State.bump_writebacks (s : State) : (s.bump).writebacks = s.writebacks := rfl
@[simp] theorem State.bump_walks (s : State) : (s.bump).walks = s.walks := rfl
@[simp] theorem State.bump_migrations (s : State) : (s.bump).migrations = s.migrations := rfl
@[simp] theorem State.bump_refusedWrites (s : State) : (s.bump).refusedWrites = s.refusedWrites := rfl
@[simp] theorem State.bump_forced (s : State) : (s.bump).forced = s.forced := rfl
@[simp] theorem State.bump_accepted (s : State) : (s.bump).accepted = s.accepted := rfl
@[simp] theorem State.bump_tickets (s : State) : (s.bump).tickets = s.tickets := rfl
@[simp] theorem State.bump_susp (s : State) : (s.bump).susp = s.susp := rfl
@[simp] theorem State.bump_leases (s : State) : (s.bump).leases = s.leases := rfl
@[simp] theorem State.bump_records (s : State) : (s.bump).records = s.records := rfl
@[simp] theorem State.bump_capgen (s : State) : (s.bump).capgen = s.capgen := rfl
@[simp] theorem State.bump_bandsDue (s : State) : (s.bump).bandsDue = s.bandsDue := rfl
@[simp] theorem State.bump_scores (s : State) : (s.bump).scores = s.scores := rfl
@[simp] theorem State.bump_savedScores (s : State) : (s.bump).savedScores = s.savedScores := rfl
@[simp] theorem State.bump_seconds (s : State) : (s.bump).seconds = s.seconds := rfl
@[simp] theorem State.bump_remap (s : State) : (s.bump).remap = s.remap := rfl
@[simp] theorem State.bump_pins (s : State) : (s.bump).pins = s.pins := rfl
@[simp] theorem State.bump_floors (s : State) : (s.bump).floors = s.floors := rfl
@[simp] theorem State.bump_counters (s : State) : (s.bump).counters = s.counters := rfl
@[simp] theorem State.bump_windows (s : State) : (s.bump).windows = s.windows := rfl
@[simp] theorem State.bump_packets (s : State) : (s.bump).packets = s.packets := rfl
@[simp] theorem State.bump_windowQueue (s : State) : (s.bump).windowQueue = s.windowQueue := rfl
@[simp] theorem State.bump_sentAt (s : State) : (s.bump).sentAt = s.sentAt := rfl
@[simp] theorem State.bump_islands (s : State) : (s.bump).islands = s.islands := rfl
@[simp] theorem State.bump_spares (s : State) : (s.bump).spares = s.spares := rfl
@[simp] theorem State.bump_lines (s : State) : (s.bump).lines = s.lines := rfl
@[simp] theorem State.bump_sharers (s : State) : (s.bump).sharers = s.sharers := rfl
@[simp] theorem State.bump_sectors (s : State) : (s.bump).sectors = s.sectors := rfl
@[simp] theorem State.bump_uncached (s : State) : (s.bump).uncached = s.uncached := rfl
@[simp] theorem State.bump_corrected (s : State) : (s.bump).corrected = s.corrected := rfl
@[simp] theorem State.bump_ovf (s : State) : (s.bump).ovf = s.ovf := rfl
@[simp] theorem State.bump_hostReply (s : State) : (s.bump).hostReply = s.hostReply := rfl
@[simp] theorem State.bump_marked (s : State) : (s.bump).marked = s.marked := rfl
@[simp] theorem State.bump_toNotify (s : State) : (s.bump).toNotify = s.toNotify := rfl
@[simp] theorem State.bump_farPoison (s : State) : (s.bump).farPoison = s.farPoison := rfl
@[simp] theorem State.bump_resends (s : State) : (s.bump).resends = s.resends := rfl
@[simp] theorem State.bump_stalledRows (s : State) : (s.bump).stalledRows = s.stalledRows := rfl
@[simp] theorem State.bump_iss (s : State) : (s.bump).iss = s.iss := rfl
@[simp] theorem State.bump_agenda (s : State) : (s.bump).agenda = s.agenda := rfl
@[simp] theorem State.bump_turn (s : State) : (s.bump).turn = s.turn := rfl
@[simp] theorem State.bump_now (s : State) : (s.bump).now = s.now := rfl
@[simp] theorem State.bump_off (s : State) : (s.bump).off = s.off := rfl

end Sys2Proof.Machine
end

