-- ==== Sys2Proof/Laws/Slot.lean ====
section
/-! SUPPORT. What an operation of a slot can do: it does nothing, traps, has its effect, or is refused. -/

namespace Sys2Proof.Machine

/-- An operation that runs has its effect on the state in its slot, once its entries are read. -/
theorem runSlot_of_runs {o : OpSem} {i : Instr} {s : State} (h : o.runs i s = true) :
    runSlot i o s = .next (o.perform (s.inSlot i.slotKind)) := by
  simp only [OpSem.runs, Bool.and_eq_true, beq_iff_eq, Option.isNone_iff_eq_none] at h
  obtain ⟨⟨⟨hw, hp⟩, hq⟩, hc⟩ := h
  simp [runSlot, hw, hp, hq, hc]

/-- An operation whose predicate is false does nothing. -/
theorem runSlot_of_pred {o : OpSem} {i : Instr} {s : State} (hw : i.wellFormed = true)
    (h : o.pred (s.inSlot i.slotKind) = false) : runSlot i o s = .next (s.inSlot i.slotKind) := by
  simp [runSlot, hw, h]

/-- An operation of a slot always ends in a next state. -/
theorem runSlot_next (o : OpSem) (i : Instr) (s : State) : ∃ t, runSlot i o s = .next t := by
  simp only [runSlot]
  split
  · exact ⟨_, rfl⟩
  · split
    · exact ⟨_, rfl⟩
    · split
      · exact ⟨_, rfl⟩
      · split <;> exact ⟨_, rfl⟩

/-- The execution of an operation of a slot is its run in its slot. -/
theorem exec_slot {i : Instr} {o : OpSem} (s : State) (h : Instr.sem i = some o) : exec i s = runSlot i o s := by
  cases i <;> cases h <;> rfl

/-- Every instruction ends in a next state: there is no fault and no refusal in exec. -/
theorem exec_next (i : Instr) (s : State) : ∃ t, exec i s = .next t := by
  cases h : Instr.sem i with
  | some o => rw [exec_slot s h]; exact runSlot_next o i s
  | none =>
    cases i <;> cases h <;> first
      | exact ⟨_, rfl⟩
      | (simp only [exec, execRingcfgEnable, execRingcfgDisable]; split <;> exact ⟨_, rfl⟩)

/-- A check that passes lets the next decide. -/
@[simp] theorem Verdict.pass_andThen (v : Verdict) : Verdict.pass.andThen v = v := rfl

@[simp] theorem need_true (t : Trap) : need true t = .pass := rfl
@[simp] theorem need_false (t : Trap) : need false t = .trap t := rfl
@[simp] theorem await_true : await true = .pass := rfl
@[simp] theorem await_false : await false = .wait := rfl

/-- With nothing to read or to append, a bundle is ready. -/
@[simp] theorem State.issueReady_nil (s : State) : s.issueReady [] [] = .pass := by
  have h : ((List.range 4).all fun _ => true) = true := rfl
  simp [State.issueReady, h]

/-- A change of the issuing berth leaves everything else. -/
theorem onlyMe_onMe (s : State) (f : Berth → Berth) : OnlyMe s (s.onMe f) := by
  refine ⟨rfl, ⟨rfl, rfl, rfl⟩, fun c hc => ?_, ?_, fun b hb => ?_, fun _ => rfl, fun _ _ => rfl⟩
  · exact State.core_setCore_ne s _ hc
  · show { (s.setCore s.iss.core _).core s.iss.core with berths := s.myCore.berths } = s.myCore
    rw [State.core_setCore_self]; rfl
  · exact State.berth_setBerth_ne s _ hb

/-- The issuing berth changed by a function is the new one. -/
theorem becomes_onMe (s : State) (k : Option SlotKind) (f : Berth → Berth) (h : s.iss.berth < 8) :
    Becomes s (.next ((s.inSlot k).onMe f)) (f s.me) := by
  cases k with
  | none => exact ⟨_, rfl, onlyMe_onMe s f, State.me_onMe s f h⟩
  | some k =>
    refine ⟨_, rfl, ?_, State.me_onMe (s.inSlot (some k)) f h⟩
    obtain ⟨-, -, h3, h4, h5, h6⟩ := onlyMe_onMe (s.inSlot (some k)) f
    exact ⟨rfl, ⟨rfl, rfl, rfl⟩, h3, h4, h5, h6⟩

/-- A result written to a scalar register. -/
theorem writesG_putG (s : State) (k : Option SlotKind) (d : BitVec 5) (v : Word) (h : s.iss.berth < 8) :
    WritesG s (.next ((s.inSlot k).putG d v)) d v :=
  becomes_onMe s k (fun b => { b with regs := b.regs.putG d.toNat v }) h

/-- A result written to a predicate. -/
theorem writesK_putK (s : State) (k : Option SlotKind) (d : BitVec 3) (v : Bool) (h : s.iss.berth < 8) :
    WritesK s (.next ((s.inSlot k).putK d v)) d v :=
  becomes_onMe s k (fun b => { b with regs := b.regs.putK d.toNat v }) h

/-- The STATE of an entry of a residual table is that of its residual. -/
theorem State.resState_eq (s : State) (l : Launch) (c b k : Nat) : s.resState l c b k = (s.residual l c b k).state := by
  unfold State.resState State.residual; split <;> rfl

end Sys2Proof.Machine
end

