-- ==== Sys2Proof/Tests/Slice0.lean ====
section
/-! SUPPORT. The model's own tests: words written out from the encoding tables of the spec decode to what they stand for, terms outside
each limit are refused, single steps give what the spec's rules say, and for each statement with hypotheses a concrete state meets
them (wit_<statement>; the parts of a statement and its clauses each have theirs). -/

open Sys2Proof Sys2Proof.Machine

namespace Sys2Proof.Tests

set_option Elab.async false

/-! ## States

Small states on which the hypotheses of the statements are met. -/

/-- Core 0, berth 0, launch 0, at the issue of a bundle. -/
def base : State := (State.reset.withFetchWord 32 0).openIssue 0 0 (Header.read 0)

/-- The registers of the issuing berth changed, now and at the bundle's start. -/
def onR (s : State) (f : Regs → Regs) : State :=
  let s := s.onBerth s.iss.core s.iss.berth fun b => { b with regs := f b.regs }
  { s with iss := { s.iss with start := (s.berth s.iss.core s.iss.berth).regs } }

/-- Scalar registers set. -/
def setG (s : State) (l : List (Nat × Nat)) : State := onR s fun r => l.foldl (fun r e => r.putG e.1 (.ofNat 64 e.2)) r

/-- The state at the start of a bundle that sees the scratchpad as it stands. -/
def seen (s : State) : State := { s with iss := { s.iss with spad := s.myCluster.spad } }

/-- Scratchpad banks that the launch in slot 0 owns. -/
def ownBanks : Vector Bank 32 := Vector.replicate 32 { Bank.reset with owner := some 0 }

/-- A page table at 0x10000: page 5 of 64 KiB at frame 0x40 with generation 5, and a page of 32 MiB at 32 MiB. -/
def table : Memory :=
  let put (m : Memory) (a v : Nat) : Memory := m.write a 8 v
  put (put (put (put (put [] 0x10000 0x11001) 0x11000 0x12001) 0x12000 0x13001) 0x12008 (1 + 2 + 8 + 16 + 0x2000 * 2 ^ 16))
    (0x13000 + 8 * 5) (1 + 2 + 8 + 16 + 32 + 0x40 * 2 ^ 16 + 5 * 2 ^ 52)

/-- A handle of page 5 that serves every access. -/
def good : Handle :=
  { Handle.zero with loaded := true, ready := true, valid := true, leaf := true, gen := 5, frame := 0x40, vpn := 5, rd := true, w := true, atm := true }

/-- Handles: h1 good, h2 not loaded, h3 not ready, h4 of an old generation, h5 with a page fault, h6 without permissions, h7 with a
poisoned granule, h8 that consumed poison, h9 with another fault. -/
def handles (r : Regs) : Regs :=
  ((((((((r.putH 8 { good with fault := 0x0C }).putH 9 { good with fault := 0x0B }).putH 1 good).putH 2 { good with loaded := false }).putH 3 { good with ready := false }).putH 4 { good with gen := 4 }).putH 5
    { good with fault := 0x0A }).putH 6 { good with rd := false, w := false, atm := false }).putH 7 { good with poison := 1 }

/-- Ring 3: four buffers of 128 bytes at 0x1000, one in each state. -/
def ring4 : Ring :=
  { cfg := .ofNat 64 (0x1000 + 7 * 2 ^ 44 + 4 * 2 ^ 48 + 2 ^ 57 + 3 * 2 ^ 58), owner := some 0, states := [.empty, .filling, .full, .draining],
    producer := 4, consumer := 6, producers := [], consumers := [], times := [] }

/-- A berth with registers, handles, a page table, banks, a ring and task queues. -/
def world : State :=
  let s := setG base [(1, 0), (2, 64), (3, 0x2000), (4, 0x50000), (5, 7), (6, 1 + 2 * 2 ^ 16), (7, 2 ^ 64 - 1), (8, 0x4000), (9, 0x1080), (10, 0x2001),
    (11, 6 * 2 ^ 24), (12, 0x3FFFFF), (13, 2), (14, 2 ^ 63)]
  let s := onR s handles
  let c : Cluster := { Cluster.reset with
    banks := Vector.ofFn fun n => if n.val < 4 then { Bank.reset with owner := some 0, pending := [5], bmodeGrant := [0] } else Bank.reset
    spad := (Memory.write [] 0x2000 32 0x0123456789ABCDEFFEDCBA9876543210).write 64 8 0x8182838485868788
    rings := [(3, ring4)]
    tqs := [(2, [{ words := [.ofNat 64 0, 1, 2, 3], units := 1, num := 0, since := 0, reserved := none }]),
            (4, [{ words := [.ofNat 64 (5 * 2 ^ 32), 1, 2, 3], units := 1, num := 0, since := 0, reserved := none }])] }
  seen { s with mem := table, ctrl := { s.ctrl with xroot := 0x10000 }, clusters := [(0, c)] }

/-- The same berth in supervisor mode. -/
def superv : State := world.onMe fun b => { b with sup := true }

/-- Whether an operation is one of a slot's and runs in a state: it is legal, its predicate is true and its checks pass. -/
def runs (i : Instr) (s : State) : Bool :=
  match Machine.Instr.sem i with
  | some o => o.runs i s
  | none => false

/-- The state an operation leaves. -/
def after (i : Instr) (s : State) : State :=
  match exec i s with
  | .next t => t
  | _ => s

/-! ## Words -/

/-- Words of the scalar slots, from the encoding tables R292 to R294: the operation of each opcode. -/
theorem decode_scalar_1 :
    decodeSlot .scalar 0x00000000 = some [.nop] ∧
    decodeSlot .scalar 0x028E6281 = some [.add { d := 5, a := 6, b := 7, p := 2, n := 1 }] ∧
    decodeSlot .scalar 0x028E6282 = some [.sub_ { d := 5, a := 6, b := 7, p := 2, n := 1 }] ∧
    decodeSlot .scalar 0x028E6283 = some [.mul { d := 5, a := 6, b := 7, p := 2, n := 1 }] ∧
    decodeSlot .scalar 0x028E6284 = some [.mulh { d := 5, a := 6, b := 7, p := 2, n := 1 }] ∧
    decodeSlot .scalar 0x028E6285 = some [.mulhn { d := 5, a := 6, b := 7, p := 2, n := 1 }] ∧
    decodeSlot .scalar 0x028E6286 = some [.div { d := 5, a := 6, b := 7, p := 2, n := 1 }] ∧
    decodeSlot .scalar 0x028E6287 = some [.divn { d := 5, a := 6, b := 7, p := 2, n := 1 }] ∧
    decodeSlot .scalar 0x028E6288 = some [.rem_ { d := 5, a := 6, b := 7, p := 2, n := 1 }] ∧
    decodeSlot .scalar 0x028E6289 = some [.remn { d := 5, a := 6, b := 7, p := 2, n := 1 }] ∧
    decodeSlot .scalar 0x028E628A = some [.and_ { d := 5, a := 6, b := 7, p := 2, n := 1 }] ∧
    decodeSlot .scalar 0x028E628B = some [.or_ { d := 5, a := 6, b := 7, p := 2, n := 1 }] ∧
    decodeSlot .scalar 0x028E628C = some [.xor_ { d := 5, a := 6, b := 7, p := 2, n := 1 }] ∧
    decodeSlot .scalar 0x028E628D = some [.andn { d := 5, a := 6, b := 7, p := 2, n := 1 }] ∧
    decodeSlot .scalar 0x028E628E = some [.shl { d := 5, a := 6, b := 7, p := 2, n := 1 }] ∧
    decodeSlot .scalar 0x028E628F = some [.shr { d := 5, a := 6, b := 7, p := 2, n := 1 }] ∧
    decodeSlot .scalar 0x028E6290 = some [.sar { d := 5, a := 6, b := 7, p := 2, n := 1 }] ∧
    decodeSlot .scalar 0x028E6291 = some [.ror { d := 5, a := 6, b := 7, p := 2, n := 1 }] ∧
    decodeSlot .scalar 0x028E6292 = some [.min_ { d := 5, a := 6, b := 7, p := 2, n := 1 }] ∧
    decodeSlot .scalar 0x028E6293 = some [.max_ { d := 5, a := 6, b := 7, p := 2, n := 1 }] ∧
    decodeSlot .scalar 0x028E6294 = some [.minn { d := 5, a := 6, b := 7, p := 2, n := 1 }] ∧
    decodeSlot .scalar 0x028E6295 = some [.maxn { d := 5, a := 6, b := 7, p := 2, n := 1 }] ∧
    decodeSlot .scalar 0x02806296 = some [.clz { d := 5, a := 6, p := 2, n := 1 }] ∧
    decodeSlot .scalar 0x02806297 = some [.popc { d := 5, a := 6, p := 2, n := 1 }] := by decide +kernel

/-- Words of the scalar slots, from the encoding tables R292 to R294: the operation of each opcode. -/
theorem decode_scalar_2 :
    decodeSlot .scalar 0x028E6298 = some [.sel_ { d := 5, a := 6, b := 7, p := 2, n := 1 }] ∧
    decodeSlot .scalar 0x068E6299 = some [.bfx { d := 5, a := 6, b := 7, p := 2, n := 1, s := 1 }] ∧
    decodeSlot .scalar 0x028E629A = some [.bfi { d := 5, a := 6, b := 7, p := 2, n := 1 }] ∧
    decodeSlot .scalar 0x168E619C = some [.cmp { k := 3, a := 6, b := 7, p := 2, n := 1, f := 5 }] ∧
    decodeSlot .scalar 0x0E88119D = some [.plog { k := 3, a := 1, b := 4, p := 2, n := 1, f := 3 }] ∧
    decodeSlot .scalar 0xFFF462A0 = some [.addi { d := 5, a := 6, p := 2, i := 0xfff }] ∧
    decodeSlot .scalar 0x012462A1 = some [.andi { d := 5, a := 6, p := 2, i := 0x12 }] ∧
    decodeSlot .scalar 0x012462A2 = some [.ori { d := 5, a := 6, p := 2, i := 0x12 }] ∧
    decodeSlot .scalar 0x012462A3 = some [.xori { d := 5, a := 6, p := 2, i := 0x12 }] ∧
    decodeSlot .scalar 0x021462A4 = some [.shli { d := 5, a := 6, p := 2, c := 0x21 }] ∧
    decodeSlot .scalar 0x021462A5 = some [.shri { d := 5, a := 6, p := 2, c := 0x21 }] ∧
    decodeSlot .scalar 0x021462A6 = some [.sari { d := 5, a := 6, p := 2, c := 0x21 }] ∧
    decodeSlot .scalar 0x012462A7 = some [.muli { d := 5, a := 6, p := 2, i := 0x12 }] ∧
    decodeSlot .scalar 0xFFEA61A8 = some [.cmpi { k := 3, a := 6, c := 5, i := 0xffe }] ∧
    decodeSlot .scalar 0x812342A9 = some [.movi { d := 5, i := 0x81234 }] ∧
    decodeSlot .scalar 0x000122AA = some [.movh20 { d := 5, i := 0x12 }] ∧
    decodeSlot .scalar 0x000122AB = some [.movh40 { d := 5, i := 0x12 }] ∧
    decodeSlot .scalar 0xB01462B0 = some [.lds { d := 5, a := 6, p := 2, o := 0x101, s := 1, z := 2 }] ∧
    decodeSlot .scalar 0x901462B1 = some [.sts { d := 5, a := 6, p := 2, o := 0x101, z := 2 }] ∧
    decodeSlot .scalar 0x0A6622B4 = some [.ld { d := 5, h := 2, a := 6, z := 3, x := 0, p := 2, n := 1 }] ∧
    decodeSlot .scalar 0x0A4622B6 = some [.st { d := 5, h := 2, a := 6, z := 2, p := 2, n := 1 }] ∧
    decodeSlot .scalar 0x0A062038 = some [.xlat { h := 2, a := 6, p := 2, n := 1 }] ∧
    decodeSlot .scalar 0x00060039 = some [.hinv { a := 6 }] ∧
    decodeSlot .scalar 0x0A0022BA = some [.hgen { d := 5, h := 2, p := 2, n := 1 }] := by decide +kernel

/-- Words of the scalar slots, from the encoding tables R292 to R294: the operation of each opcode. -/
theorem decode_scalar_3 :
    decodeSlot .scalar 0x3A0021BB = some [.htst { k := 3, h := 2, p := 2, n := 1, s := 3 }] ∧
    decodeSlot .scalar 0x028064BD = some [.zset { z := 9, a := 6, p := 2, n := 1 }] ∧
    decodeSlot .scalar 0x028092BE = some [.zget { d := 5, z := 9, p := 2, n := 1 }] ∧
    decodeSlot .scalar 0xE4E622C0 = some [.atom { d := 5, h := 2, a := 6, b := 7, f := 9, s := 1, c := 1 }] ∧
    decodeSlot .scalar 0x0002C0C4 = some [.fence { m := 0x81, s := 5 }] ∧
    decodeSlot .scalar 0x303982C5 = some [.waitGen { d := 5, a := 6, b := 7, k := 3, t := 0 }] ∧
    decodeSlot .scalar 0x806852C5 = some [.waitBuf { d := 5, r := 0x21, a := 6, k := 0, t := 1 }] ∧
    decodeSlot .scalar 0x3000A2C5 = some [.waitHdl { d := 5, h := 2, k := 3, t := 0 }] ∧
    decodeSlot .scalar 0x000E6046 = some [.swset { a := 6, b := 7 }] ∧
    decodeSlot .scalar 0x000E6047 = some [.swadd { a := 6, b := 7 }] ∧
    decodeSlot .scalar 0x824002C8 = some [.acqb { d := 5, o := 9, c := 1 }] ∧
    decodeSlot .scalar 0xB24002C9 = some [.acqbt { d := 5, o := 9, k := 3, c := 1 }] ∧
    decodeSlot .scalar 0x8240604A = some [.relb { a := 6, o := 9, c := 1 }] ∧
    decodeSlot .scalar 0x8040604B = some [.bar { a := 6, s := 1, w := 1 }] ∧
    decodeSlot .scalar 0x024E6050 = some [.enq { a := 6, b := 7, q := 9 }] ∧
    decodeSlot .scalar 0x324E6051 = some [.enqt { a := 6, b := 7, q := 9, k := 3 }] ∧
    decodeSlot .scalar 0x024062D2 = some [.deq { d := 5, a := 6, q := 9 }] ∧
    decodeSlot .scalar 0x324062D3 = some [.deqt { d := 5, a := 6, q := 9, k := 3 }] ∧
    decodeSlot .scalar 0x024E62D4 = some [.spawn { d := 5, a := 6, b := 7, q := 9 }] ∧
    decodeSlot .scalar 0x00806058 = some [.qcfg { a := 6, q := 2 }] ∧
    decodeSlot .scalar 0x00806059 = some [.qspl { a := 6, q := 2 }] ∧
    decodeSlot .scalar 0x0080005A = some [.qusp { q := 2 }] ∧
    decodeSlot .scalar 0x008002DB = some [.qdist { d := 5, q := 2 }] ∧
    decodeSlot .scalar 0x0084605C = some [.dset { a := 6, p := 2, e := 8 }] := by decide +kernel

/-- Words of the scalar slots, from the encoding tables R292 to R294: the operation of each opcode. -/
theorem decode_scalar_4 :
    decodeSlot .scalar 0x0084605D = some [.dget { a := 6, p := 2, e := 8 }] ∧
    decodeSlot .scalar 0x0040605E = some [.bmode { a := 6, q := 1 }] ∧
    decodeSlot .scalar 0x0000605F = some [.brel { a := 6 }] ∧
    decodeSlot .scalar 0x00006060 = some [.bacq { a := 6 }] ∧
    decodeSlot .scalar 0x028E6061 = some [.chk { a := 6, b := 7, p := 2, n := 1 }] ∧
    decodeSlot .scalar 0x002190E2 = some [.chkq { x := 0x21, y := 0x43 }] ∧
    decodeSlot .scalar 0x028E6063 = some [.chkp { a := 6, b := 7, p := 2, n := 1 }] ∧
    decodeSlot .scalar 0x80001D68 = some [.br { p := 2, n := 1, o := 0x100003 }] ∧
    decodeSlot .scalar 0x02806069 = some [.brr { a := 6, p := 2, n := 1 }] ∧
    decodeSlot .scalar 0x80001D6A = some [.call { p := 2, n := 1, o := 0x100003 }] ∧
    decodeSlot .scalar 0x0280606B = some [.ret { a := 6, p := 2, n := 1 }] ∧
    decodeSlot .scalar 0x0120606C = some [.loop_ { a := 6, i := 0x12 }] ∧
    decodeSlot .scalar 0x0912306D = some [.loopi { c := 0x123, l := 9 }] ∧
    decodeSlot .scalar 0x0000056E = some [.brk { p := 2, n := 1 }] ∧
    decodeSlot .scalar 0x003402EF = some [.lidx { d := 5, p := 2, i := 3 }] ∧
    decodeSlot .scalar 0x91240070 = some [.trap { p := 2, i := 0x912 }] ∧
    decodeSlot .scalar 0x00000071 = some [.eret] ∧
    decodeSlot .scalar 0x020402F2 = some [.mfsr { d := 5, p := 2, i := 0x20 }] ∧
    decodeSlot .scalar 0x01346073 = some [.mtsr { a := 6, p := 2, i := 0x13 }] ∧
    decodeSlot .scalar 0x00000074 = some [.halt] ∧
    decodeSlot .scalar 0x028062F7 = some [.leaseReq { d := 5, a := 6, p := 2, n := 1 }] ∧
    decodeSlot .scalar 0x068062F7 = some [.leaseEnd { d := 5, a := 6, p := 2, n := 1 }] ∧
    decodeSlot .scalar 0x200E62F8 = some [.cop { d := 5, a := 6, b := 7, c := 0, r := 1 }] := by decide +kernel

/-- Words of the M slot, from the encoding tables R298 to R300: the operation of each opcode. -/
theorem decode_matrix :
    decodeSlot .matrix 0xA0643211 = some [.mma { a := 0x21, b := 0x43, h := 2, z := 1, p := 2, n := 1 }] ∧
    decodeSlot .matrix 0xA0643212 = some [.mmas { a := 0x21, b := 0x43, h := 2, z := 1, p := 2, n := 1 }] ∧
    decodeSlot .matrix 0xA0643213 = some [.mmag { a := 0x21, b := 0x43, h := 2, z := 1, p := 2, n := 1 }] ∧
    decodeSlot .matrix 0xA8900094 = some [.accr { f := 9, h := 1, d := 1, r := 4, p := 2, n := 1 }] ∧
    decodeSlot .matrix 0xA0209065 = some [.accw { a := 6, f := 9, h := 2, p := 2, n := 1 }] ∧
    decodeSlot .matrix 0xA0100006 = some [.accz { h := 1, p := 2, n := 1 }] ∧
    decodeSlot .matrix 0xA0A00067 = some [.mtrn { a := 6, h := 2, d := 1, p := 2, n := 1 }] := by decide +kernel

/-- Words of the E slot, from the encoding tables R298 to R300: the operation of each opcode. -/
theorem decode_engine :
    decodeSlot .engine 0x28CC00E1 = some [.cpy { b := 7, u := 1, l := 1, w := 3, p := 2, n := 1 }] ∧
    decodeSlot .engine 0x28CC00E2 = some [.cpyt { b := 7, u := 1, l := 1, w := 3, p := 2, n := 1 }] ∧
    decodeSlot .engine 0x28C500E3 = some [.cpym { b := 7, q := 2, u := 1, l := 0, w := 3, p := 2, n := 1 }] ∧
    decodeSlot .engine 0x28C500E4 = some [.ldq { b := 7, q := 2, u := 1, l := 0, w := 3, p := 2, n := 1 }] ∧
    decodeSlot .engine 0x28C484E5 = some [.stq { b := 7, o := 0x21, u := 1, l := 0, w := 3, p := 2, n := 1 }] ∧
    decodeSlot .engine 0x28C484E6 = some [.gath { b := 7, o := 0x21, u := 1, l := 0, w := 3, p := 2, n := 1 }] ∧
    decodeSlot .engine 0x28C484E7 = some [.scat { b := 7, o := 0x21, u := 1, l := 0, w := 3, p := 2, n := 1 }] ∧
    decodeSlot .engine 0x280000E8 = some [.pref { b := 7, p := 2, n := 1 }] ∧
    decodeSlot .engine 0x280000E9 = some [.pin { b := 7, p := 2, n := 1 }] ∧
    decodeSlot .engine 0x280000EA = some [.unpn { b := 7, p := 2, n := 1 }] ∧
    decodeSlot .engine 0x280084EB = some [.acch { b := 7, o := 0x21, p := 2, n := 1 }] ∧
    decodeSlot .engine 0x2800000C = some [.flushr { p := 2, n := 1 }] ∧
    decodeSlot .engine 0x28C084ED = some [.xst { b := 7, o := 0x21, w := 3, p := 2, n := 1 }] ∧
    decodeSlot .engine 0x28C500EE = some [.subs { b := 7, q := 2, u := 1, l := 0, w := 3, p := 2, n := 1 }] ∧
    decodeSlot .engine 0x28C084EF = some [.rets { b := 7, o := 0x21, w := 3, p := 2, n := 1 }] ∧
    decodeSlot .engine 0x28C084F0 = some [.coll { b := 7, o := 0x21, w := 3, p := 2, n := 1 }] := by decide +kernel

/-- Words of the U slot, from the encoding tables R298 to R300: the operation of each opcode. -/
theorem decode_pack :
    decodeSlot .pack 0x50CF2421 = some [.unpk { s := 0x21, d := 1, m := 6, w := 3, r := 4, h := 1, p := 2, n := 1 }] ∧
    decodeSlot .pack 0x50CF2422 = some [.pack { s := 0x21, d := 1, m := 6, w := 3, r := 4, h := 1, p := 2, n := 1 }] ∧
    decodeSlot .pack 0x500AA423 = some [.pscl { s := 0x21, d := 1, m := 5, w := 2, p := 2, n := 1 }] ∧
    decodeSlot .pack 0x55022424 = some [.spmx { s := 0x21, d := 1, m := 4, c := 5, p := 2, n := 1 }] ∧
    decodeSlot .pack 0x5300A425 = some [.spex { s := 0x21, d := 1, m := 1, c := 3, p := 2, n := 1 }] := by decide +kernel

/-- Words of the V slot, from R295 and R296: the opcode of each stage, with PASS in the other two. -/
theorem decode_vector_1 :
    decodeSlot .vector 0x0A228A1508840000 = some ((fun w => [.pass_ .va w, .pass_ .vb w, .pass_ .vc w])
      ⟨0x0, 0x0, 0x0, 0x21, 0x42, 0x85, 0xA2, 0, 1, 4, 2, 0⟩) ∧
    decodeSlot .vector 0x2A268A1508840040 = some ((fun w => [.pass_ .va w, .fadd .vb w, .pass_ .vc w])
      ⟨0x0, 0x1, 0x0, 0x21, 0x42, 0x85, 0xA2, 1, 1, 4, 2, 1⟩) ∧
    decodeSlot .vector 0x0A2A8A1508842000 = some ((fun w => [.pass_ .va w, .pass_ .vb w, .fsub .vc w])
      ⟨0x0, 0x0, 0x2, 0x21, 0x42, 0x85, 0xA2, 2, 1, 4, 2, 0⟩) ∧
    decodeSlot .vector 0x2A2E8A1508840003 = some ((fun w => [.fmul .va w, .pass_ .vb w, .pass_ .vc w])
      ⟨0x3, 0x0, 0x0, 0x21, 0x42, 0x85, 0xA2, 3, 1, 4, 2, 1⟩) ∧
    decodeSlot .vector 0x0A328A1508840180 = some ((fun w => [.pass_ .va w, .fmin .vb w, .pass_ .vc w])
      ⟨0x0, 0x6, 0x0, 0x21, 0x42, 0x85, 0xA2, 4, 1, 4, 2, 0⟩) ∧
    decodeSlot .vector 0x2A228A1508847000 = some ((fun w => [.pass_ .va w, .pass_ .vb w, .fmax .vc w])
      ⟨0x0, 0x0, 0x7, 0x21, 0x42, 0x85, 0xA2, 0, 1, 4, 2, 1⟩) ∧
    decodeSlot .vector 0x0A228A1508840008 = some ((fun w => [.fabs .va w, .pass_ .vb w, .pass_ .vc w])
      ⟨0x8, 0x0, 0x0, 0x21, 0x42, 0x85, 0xA2, 0, 1, 4, 2, 0⟩) ∧
    decodeSlot .vector 0x2A268A1508840240 = some ((fun w => [.pass_ .va w, .fneg .vb w, .pass_ .vc w])
      ⟨0x0, 0x9, 0x0, 0x21, 0x42, 0x85, 0xA2, 1, 1, 4, 2, 1⟩) ∧
    decodeSlot .vector 0x0A2A8A150884A000 = some ((fun w => [.pass_ .va w, .pass_ .vb w, .fcps .vc w])
      ⟨0x0, 0x0, 0xA, 0x21, 0x42, 0x85, 0xA2, 2, 1, 4, 2, 0⟩) ∧
    decodeSlot .vector 0x2BAE8A150884000B = some ((fun w => [.fcmp .va w, .pass_ .vb w, .pass_ .vc w])
      ⟨0xB, 0x0, 0x0, 0x21, 0x42, 0x85, 0xA2, 3, 1, 7, 2, 1⟩) ∧
    decodeSlot .vector 0x0A328A1508840300 = some ((fun w => [.pass_ .va w, .fsel .vb w, .pass_ .vc w])
      ⟨0x0, 0xC, 0x0, 0x21, 0x42, 0x85, 0xA2, 4, 1, 4, 2, 0⟩) ∧
    decodeSlot .vector 0x2A228A150884D000 = some ((fun w => [.pass_ .va w, .pass_ .vb w, .frnd .vc w])
      ⟨0x0, 0x0, 0xD, 0x21, 0x42, 0x85, 0xA2, 0, 1, 4, 2, 1⟩) ∧
    decodeSlot .vector 0x0A228A150884000E = some ((fun w => [.rcp .va w, .pass_ .vb w, .pass_ .vc w])
      ⟨0xE, 0x0, 0x0, 0x21, 0x42, 0x85, 0xA2, 0, 1, 4, 2, 0⟩) ∧
    decodeSlot .vector 0x2A268A15088403C0 = some ((fun w => [.pass_ .va w, .rsq .vb w, .pass_ .vc w])
      ⟨0x0, 0xF, 0x0, 0x21, 0x42, 0x85, 0xA2, 1, 1, 4, 2, 1⟩) ∧
    decodeSlot .vector 0x0A2A8A1508850000 = some ((fun w => [.pass_ .va w, .pass_ .vb w, .exp2 .vc w])
      ⟨0x0, 0x0, 0x10, 0x21, 0x42, 0x85, 0xA2, 2, 1, 4, 2, 0⟩) ∧
    decodeSlot .vector 0x2A2E8A1508840011 = some ((fun w => [.log2 .va w, .pass_ .vb w, .pass_ .vc w])
      ⟨0x11, 0x0, 0x0, 0x21, 0x42, 0x85, 0xA2, 3, 1, 4, 2, 1⟩) ∧
    decodeSlot .vector 0x0A328A1508840480 = some ((fun w => [.pass_ .va w, .cvt .vb w, .pass_ .vc w])
      ⟨0x0, 0x12, 0x0, 0x21, 0x42, 0x85, 0xA2, 4, 1, 4, 2, 0⟩) ∧
    decodeSlot .vector 0x2A628A1508853000 = some ((fun w => [.pass_ .va w, .pass_ .vb w, .cvti .vc w])
      ⟨0x0, 0x0, 0x13, 0x21, 0x42, 0x85, 0xA2, 0, 3, 4, 2, 1⟩) ∧
    decodeSlot .vector 0x0A228A1508840014 = some ((fun w => [.cvtf .va w, .pass_ .vb w, .pass_ .vc w])
      ⟨0x14, 0x0, 0x0, 0x21, 0x42, 0x85, 0xA2, 0, 1, 4, 2, 0⟩) ∧
    decodeSlot .vector 0x2A668A1508840600 = some ((fun w => [.pass_ .va w, .iadd .vb w, .pass_ .vc w])
      ⟨0x0, 0x18, 0x0, 0x21, 0x42, 0x85, 0xA2, 1, 3, 4, 2, 1⟩) ∧
    decodeSlot .vector 0x0A6A8A1508859000 = some ((fun w => [.pass_ .va w, .pass_ .vb w, .isub .vc w])
      ⟨0x0, 0x0, 0x19, 0x21, 0x42, 0x85, 0xA2, 2, 3, 4, 2, 0⟩) := by decide +kernel

/-- Words of the V slot, from R295 and R296: the opcode of each stage, with PASS in the other two. -/
theorem decode_vector_2 :
    decodeSlot .vector 0x2A6E8A150884001A = some ((fun w => [.imul .va w, .pass_ .vb w, .pass_ .vc w])
      ⟨0x1A, 0x0, 0x0, 0x21, 0x42, 0x85, 0xA2, 3, 3, 4, 2, 1⟩) ∧
    decodeSlot .vector 0x0A728A15088406C0 = some ((fun w => [.pass_ .va w, .imulh .vb w, .pass_ .vc w])
      ⟨0x0, 0x1B, 0x0, 0x21, 0x42, 0x85, 0xA2, 4, 3, 4, 2, 0⟩) ∧
    decodeSlot .vector 0x2A628A150885C000 = some ((fun w => [.pass_ .va w, .pass_ .vb w, .imin .vc w])
      ⟨0x0, 0x0, 0x1C, 0x21, 0x42, 0x85, 0xA2, 0, 3, 4, 2, 1⟩) ∧
    decodeSlot .vector 0x0A628A150884001D = some ((fun w => [.imax .va w, .pass_ .vb w, .pass_ .vc w])
      ⟨0x1D, 0x0, 0x0, 0x21, 0x42, 0x85, 0xA2, 0, 3, 4, 2, 0⟩) ∧
    decodeSlot .vector 0x2A668A1508840780 = some ((fun w => [.pass_ .va w, .iminn .vb w, .pass_ .vc w])
      ⟨0x0, 0x1E, 0x0, 0x21, 0x42, 0x85, 0xA2, 1, 3, 4, 2, 1⟩) ∧
    decodeSlot .vector 0x0A6A8A150885F000 = some ((fun w => [.pass_ .va w, .pass_ .vb w, .imaxn .vc w])
      ⟨0x0, 0x0, 0x1F, 0x21, 0x42, 0x85, 0xA2, 2, 3, 4, 2, 0⟩) ∧
    decodeSlot .vector 0x2A6E8A1508840020 = some ((fun w => [.iand .va w, .pass_ .vb w, .pass_ .vc w])
      ⟨0x20, 0x0, 0x0, 0x21, 0x42, 0x85, 0xA2, 3, 3, 4, 2, 1⟩) ∧
    decodeSlot .vector 0x0A728A1508840840 = some ((fun w => [.pass_ .va w, .ior .vb w, .pass_ .vc w])
      ⟨0x0, 0x21, 0x0, 0x21, 0x42, 0x85, 0xA2, 4, 3, 4, 2, 0⟩) ∧
    decodeSlot .vector 0x2A628A1508862000 = some ((fun w => [.pass_ .va w, .pass_ .vb w, .ixor .vc w])
      ⟨0x0, 0x0, 0x22, 0x21, 0x42, 0x85, 0xA2, 0, 3, 4, 2, 1⟩) ∧
    decodeSlot .vector 0x0A628A1508840023 = some ((fun w => [.ishl .va w, .pass_ .vb w, .pass_ .vc w])
      ⟨0x23, 0x0, 0x0, 0x21, 0x42, 0x85, 0xA2, 0, 3, 4, 2, 0⟩) ∧
    decodeSlot .vector 0x2A668A1508840900 = some ((fun w => [.pass_ .va w, .ishr .vb w, .pass_ .vc w])
      ⟨0x0, 0x24, 0x0, 0x21, 0x42, 0x85, 0xA2, 1, 3, 4, 2, 1⟩) ∧
    decodeSlot .vector 0x0A6A8A1508865000 = some ((fun w => [.pass_ .va w, .pass_ .vb w, .isar .vc w])
      ⟨0x0, 0x0, 0x25, 0x21, 0x42, 0x85, 0xA2, 2, 3, 4, 2, 0⟩) ∧
    decodeSlot .vector 0x2BEE8A1508840026 = some ((fun w => [.icmp .va w, .pass_ .vb w, .pass_ .vc w])
      ⟨0x26, 0x0, 0x0, 0x21, 0x42, 0x85, 0xA2, 3, 3, 7, 2, 1⟩) ∧
    decodeSlot .vector 0x0A728A15088409C0 = some ((fun w => [.pass_ .va w, .isel .vb w, .pass_ .vc w])
      ⟨0x0, 0x27, 0x0, 0x21, 0x42, 0x85, 0xA2, 4, 3, 4, 2, 0⟩) ∧
    decodeSlot .vector 0x2A228A1508870000 = some ((fun w => [.pass_ .va w, .pass_ .vb w, .rsum .vc w])
      ⟨0x0, 0x0, 0x30, 0x21, 0x42, 0x85, 0xA2, 0, 1, 4, 2, 1⟩) ∧
    decodeSlot .vector 0x0A228A1508840031 = some ((fun w => [.rmax .va w, .pass_ .vb w, .pass_ .vc w])
      ⟨0x31, 0x0, 0x0, 0x21, 0x42, 0x85, 0xA2, 0, 1, 4, 2, 0⟩) ∧
    decodeSlot .vector 0x2A268A1508840C80 = some ((fun w => [.pass_ .va w, .rmin .vb w, .pass_ .vc w])
      ⟨0x0, 0x32, 0x0, 0x21, 0x42, 0x85, 0xA2, 1, 1, 4, 2, 1⟩) ∧
    decodeSlot .vector 0x0A2A8A1508873000 = some ((fun w => [.pass_ .va w, .pass_ .vb w, .bcast .vc w])
      ⟨0x0, 0x0, 0x33, 0x21, 0x42, 0x85, 0xA2, 2, 1, 4, 2, 0⟩) ∧
    decodeSlot .vector 0x2A2E8A1508840034 = some ((fun w => [.perm .va w, .pass_ .vb w, .pass_ .vc w])
      ⟨0x34, 0x0, 0x0, 0x21, 0x42, 0x85, 0xA2, 3, 1, 4, 2, 1⟩) ∧
    decodeSlot .vector 0x0A328A1508840D40 = some ((fun w => [.pass_ .va w, .lrot .vb w, .pass_ .vc w])
      ⟨0x0, 0x35, 0x0, 0x21, 0x42, 0x85, 0xA2, 4, 1, 4, 2, 0⟩) ∧
    decodeSlot .vector 0x2A228A1508876000 = some ((fun w => [.pass_ .va w, .pass_ .vb w, .amax .vc w])
      ⟨0x0, 0x0, 0x36, 0x21, 0x42, 0x85, 0xA2, 0, 1, 4, 2, 1⟩) := by decide +kernel

/-- The fused operations follow an FMUL (R359). -/
theorem decode_vector_fused :
    decodeSlot .vector 0x0052929A7E000103 = some ((fun w => [.fmul .va w, .faddf .vb w, .pass_ .vc w])
      ⟨3, 4, 0, 0x80, 0x9F, 0xA6, 0xA4, 4, 2, 0, 0, 0⟩) ∧
    decodeSlot .vector 0x0052929A7E0050C3 = some ((fun w => [.fmul .va w, .fmul .vb w, .fsubf .vc w])
      ⟨3, 3, 5, 0x80, 0x9F, 0xA6, 0xA4, 4, 2, 0, 0, 0⟩) ∧
    decodeSlot .vector 0x0052929A7E000143 = some ((fun w => [.fmul .va w, .fsubf .vb w, .pass_ .vc w])
      ⟨3, 5, 0, 0x80, 0x9F, 0xA6, 0xA4, 4, 2, 0, 0, 0⟩) := by decide +kernel

/-! ## Ill-formed terms -/

/-- A term outside the limits of each check on the scalar operations (R293, R294, R303) is refused. -/
theorem wf_refuses_scalar :
    [Instr.cmp ⟨1, 2, 3, 0, 0, 8⟩, .plog ⟨1, 2, 3, 0, 0, 5⟩, .plog ⟨1, 2, 3, 0, 0, 4⟩, .ld ⟨5, 1, 2, 3, 1, 0, 0⟩,
     .htst ⟨1, 1, 0, 0, 4⟩, .atom ⟨5, 1, 2, 3, 12, 0, 0⟩, .atom ⟨5, 1, 2, 3, 10, 1, 0⟩, .atom ⟨5, 1, 2, 3, 11, 0, 0⟩,
     .waitGen ⟨1, 2, 3, 1, 1⟩, .waitBuf ⟨1, 2, 3, 1, 1⟩, .waitHdl ⟨1, 2, 1, 1⟩, .spawn ⟨1, 2, 30, 3⟩, .bmode ⟨1, 3⟩,
     .chkq ⟨0x80, 0⟩, .chkq ⟨0, 0x80⟩, .loop_ ⟨1, 0⟩, .loop_ ⟨1, 2048⟩, .loopi ⟨1, 0⟩, .lidx ⟨5, 0, 6⟩, .mfsr ⟨5, 0, 0x009⟩,
     .mtsr ⟨5, 0, 0x052⟩, .cop ⟨5, 6, 7, 1, 0⟩].all (fun i => !i.wellFormed) = true := by decide +kernel

/-- A term outside the limits of each check on the M and U operations (R298, R300) is refused. -/
theorem wf_refuses_matrix_and_pack :
    [Instr.mma ⟨0, 0x40, 3, 0, 0, 0⟩, .mmas ⟨0, 0x40, 3, 0, 0, 0⟩, .mmag ⟨0, 0x40, 3, 0, 0, 0⟩, .accr ⟨0, 0, 2, 0, 0, 0⟩,
     .accr ⟨0, 3, 2, 0, 0, 0⟩, .accr ⟨0, 1, 2, 5, 0, 0⟩, .accw ⟨0, 0, 0, 0, 0⟩, .accw ⟨0, 0, 3, 0, 0⟩, .accz ⟨0, 0, 0⟩,
     .mtrn ⟨0, 3, 2, 0, 0⟩, .unpk ⟨0, 2, 0, 0, 5, 0, 0, 0⟩, .unpk ⟨0, 2, 7, 0, 0, 0, 0, 0⟩, .unpk ⟨0, 2, 3, 3, 0, 0, 0, 0⟩,
     .unpk ⟨0, 2, 0, 0, 0, 1, 0, 0⟩, .pack ⟨0, 2, 0, 0, 5, 0, 0, 0⟩, .pack ⟨28, 2, 0, 0, 0, 0, 0, 0⟩, .pack ⟨30, 2, 0, 1, 0, 0, 0, 0⟩,
     .pscl ⟨0, 2, 7, 0, 0, 0⟩, .pscl ⟨0, 2, 4, 3, 0, 0⟩, .spmx ⟨0, 2, 2, 0, 0, 0⟩, .spmx ⟨0, 2, 0, 6, 0, 0⟩, .spex ⟨0, 2, 3, 0, 0, 0⟩,
     .spex ⟨0, 2, 4, 7, 0, 0⟩].all (fun i => !i.wellFormed) = true := by decide +kernel

/-- A V slot outside each limit of R295 to R297, R123, R344 and R359 is refused: a reserved opcode, a fused operation without its FMUL,
a second owner of the rnd/cond field, a type that the operation does not take, a conversion that R344 does not have, a mode beyond 4, a
reserved operand or destination, an accumulator row in another format than f32, and a row written by another chain than R297 allows. -/
theorem wf_refuses_vector :
    [(⟨0x15, 0, 0, 0, 0, 0, 0, 4, 0, 0, 0, 0⟩ : VSlot), ⟨0, 0x28, 0, 0, 0, 0, 0, 4, 0, 0, 0, 0⟩, ⟨4, 0, 0, 0, 0, 0, 0, 4, 0, 0, 0, 0⟩,
     ⟨1, 5, 0, 0, 0, 0, 0, 4, 0, 0, 0, 0⟩, ⟨3, 0, 4, 0, 0, 0, 0, 4, 0, 0, 0, 0⟩, ⟨0x0B, 0x0B, 0, 0, 0, 0, 0, 4, 0, 0, 0, 0⟩,
     ⟨1, 0, 0, 0, 0, 0, 0, 4, 3, 0, 0, 0⟩, ⟨0x18, 0, 0, 0, 0, 0, 0, 4, 0, 0, 0, 0⟩, ⟨0x12, 0, 0, 0, 0, 0, 0, 4, 0, 2, 0, 0⟩,
     ⟨0x13, 0, 0, 0, 0, 0, 0, 4, 0, 0, 0, 0⟩, ⟨0x0D, 0, 0, 0, 0, 0, 0, 4, 0, 5, 0, 0⟩, ⟨0, 0, 0, 0, 0, 0, 0, 4, 0, 5, 0, 0⟩,
     ⟨0, 0, 0, 0xA3, 0, 0, 0, 4, 0, 0, 0, 0⟩, ⟨1, 0, 0, 0, 0xA7, 0, 0, 4, 0, 0, 0, 0⟩, ⟨0, 0, 0, 0, 0, 0, 0, 6, 0, 0, 0, 0⟩,
     ⟨0, 0, 0, 0xC0, 0, 0, 0, 4, 1, 0, 0, 0⟩, ⟨0, 0, 0, 0, 0, 0, 0, 5, 0, 0, 0, 0⟩, ⟨0, 0, 1, 0, 0, 0, 0xC0, 5, 0, 0, 0, 0⟩,
     ⟨0, 0, 0, 0, 0, 0, 0xC0, 5, 1, 0, 0, 0⟩].all (fun w => !w.wf) = true ∧
    (Instr.fadd .va ⟨2, 0, 0, 0, 0, 0, 0, 4, 0, 0, 0, 0⟩).wellFormed = false := by decide +kernel

/-- A word of a reserved opcode, or with a reserved bit set, decodes to no operation. -/
theorem decode_refuses :
    [decodeSlot .scalar 0x0000001B, decodeSlot .scalar 0x040E6281, decodeSlot .scalar 0x00000080, decodeSlot .matrix 0x00000000,
     decodeSlot .matrix 0x00C40001, decodeSlot .engine 0x00000000, decodeSlot .engine 0x40400081, decodeSlot .pack 0x00000000,
     decodeSlot .pack 0x80004001, decodeSlot .vector 0x4000000000000000].all Option.isNone = true := by decide +kernel

/-! ## Witnesses: encodings and steps -/

theorem wit_DecodeOfEncode :
    (Instr.add ⟨31, 31, 31, 7, 1⟩).wellFormed = true ∧ (Instr.add ⟨31, 31, 31, 7, 1⟩).slotKind = some .scalar ∧
    (encode (.add ⟨31, 31, 31, 7, 1⟩)).isSome = true ∧
    (Instr.loop_ ⟨31, 2047⟩).wellFormed = true ∧ (encode (.loop_ ⟨31, 2047⟩)).isSome = true ∧
    (Instr.fadd .vc ⟨0, 0, 1, 0xC0, 0, 0, 0xFF, 4, 0, 4, 7, 1⟩).wellFormed = true := by decide +kernel

theorem wit_EncodeOfDecode :
    decodeSlot .scalar 0x03FFFF81 = some [.add ⟨31, 31, 31, 7, 1⟩] ∧ Instr.add ⟨31, 31, 31, 7, 1⟩ ∈ [Instr.add ⟨31, 31, 31, 7, 1⟩] := by
  decide +kernel

/-- The machine after reset with a bundle of one ADD, and with one of a DIV by zero. -/
def placed (w : Nat) : State := State.reset.withFetchWord 32 w

theorem wit_StepRuns : (placed 0x000E6281).off = false ∧ State.reset.off = false ∧ (placed 0).agenda.head? = none := by decide +kernel

theorem wit_StepStops : ({ State.reset with off := true } : State).nextRow ≠ .powerOnReset ∧
    ({ State.reset with off := true, agenda := [.powerOnReset] } : State).nextRow = .powerOnReset := by decide +kernel

/-- The placed bundle of a DIV by zero, with a handler at bundle 5 whose first bundle is the same. -/
def trapped : State :=
  (placed 0x000E6286).setCore 0 { (placed 0x000E6286).core 0 with
    tvec := 5, imem := ((placed 0x000E6286).core 0).imem ++ ((placed 0x000E6286).core 0).imem.map fun e => (5, e.2) }

/-- The hypotheses of StepIssues about the bundle at the PC of berth 0, with whether its checks pass. -/
def issues (s : State) (pass : Bool) : Bool :=
  let c := s.turn
  let u := s.advance.tickCore c
  let v := (List.range 8).foldl (fun (t : State) d => t.consider c d) u
  !s.off && s.agenda.isEmpty && (s.island (islandOf (clusterOf s.turn))).ticks s.now &&
    ((List.range 8).all fun d => !u.evictDue c d) && v.pick c (List.range 8) == some 0 &&
    match Map.get? (v.core c).imem (v.berth c 0).regs.pc.toNat with
    | none => false
    | some m => m.owner == some (v.berth c 0).slot && match decodeBundle m.word with
      | .error _ => false
      | .ok x => let w := v.openIssue c 0 x.hdr
        (match w.judge x (w.active x) with
          | .pass => true
          | _ => false) == pass

theorem wit_StepIssues : issues (placed 0x000E6281) true = true ∧ issues trapped false = true := by decide +kernel

theorem wit_SlotIsExec :
    ∃ o, Machine.Instr.sem (.add ⟨5, 1, 2, 0, 0⟩) = some o ∧ o.runs (.add ⟨5, 1, 2, 0, 0⟩) base = true ∧
      (base.atSlot 2).dropPending (o.writes.map Prod.fst) = base.inSlot (some .scalar) ∧
      ((base.atSlot 1).atSlot 1).dropPending (o.writes.map Prod.fst) = (base.atSlot 1).inSlot (some .scalar) :=
  ⟨_, rfl, by decide +kernel⟩

theorem wit_FalsePredicate :
    ∃ o, Machine.Instr.sem (.add ⟨5, 1, 2, 1, 0⟩) = some o ∧ (Instr.add ⟨5, 1, 2, 1, 0⟩).wellFormed = true ∧
      o.pred (world.inSlot (some .scalar)) = false := ⟨_, rfl, by decide +kernel⟩

theorem wit_IllegalOpcode :
    ∃ o, Machine.Instr.sem (.cmp ⟨1, 2, 3, 0, 0, 8⟩) = some o ∧ (Instr.cmp ⟨1, 2, 3, 0, 0, 8⟩).wellFormed = false ∧
      (encode (.cmp ⟨1, 2, 3, 0, 0, 8⟩)).isSome = true := ⟨_, rfl, by decide +kernel⟩

theorem wit_CheckedOperation :
    (∃ o, Machine.Instr.sem (.div ⟨5, 7, 2, 0, 0⟩) = some o ∧ o.pred (world.inSlot (some .scalar)) = true ∧
      o.priv (world.inSlot (some .scalar)) = none ∧ o.runs (.div ⟨5, 7, 2, 0, 0⟩) world = true) ∧
    (∃ o, Machine.Instr.sem (.div ⟨5, 7, 1, 0, 0⟩) = some o ∧ o.pred (world.inSlot (some .scalar)) = true ∧
      o.priv (world.inSlot (some .scalar)) = none ∧ o.runs (.div ⟨5, 7, 1, 0, 0⟩) world = false) :=
  ⟨⟨_, rfl, by decide +kernel⟩, ⟨_, rfl, by decide +kernel⟩⟩

theorem wit_PrivilegedInUserMode :
    world.me.sup = false ∧ world.iss.berth < 8 ∧ world.predIs 0 0 = true ∧ ((0x050 : BitVec 12) = 0x050 ∨ (0x050 : BitVec 12) = 0x051) ∧
    (0x051 : BitVec 12).toNat ∈ [0x003, 0x004, 0x007, 0x008, 0x010, 0x011, 0x012, 0x013, 0x051] ∧ (2 : BitVec 2) ≠ 3 ∧
    (world.srcG 7).getLsbD 31 = true ∧ (world.myCluster.bank 31).owner ≠ some world.mySlot := by decide +kernel

theorem wit_RegisterFile : (31 : BitVec 5) ≠ 0 ∧ (1 : BitVec 3) ≠ 0 ∧ 0 < 31 ∧ 31 < 32 ∧ 0 < 7 ∧ 7 < 8 := by decide

/-! ## Witnesses: scalar operations

An operation with a true predicate in every state; the predicate k1 is false in these states. -/

theorem wit_Arithmetic : world.iss.berth < 8 ∧ world.predIs 0 0 = true ∧ world.predIs 1 1 = true := by decide +kernel

theorem wit_ShiftResults : world.iss.berth < 8 ∧ world.predIs 7 1 = true ∧ world.predIs 0 0 = true := by decide +kernel

theorem wit_MinMax : world.iss.berth < 8 ∧ world.predIs 0 0 = true ∧ world.predIs 1 0 = false ∧ 63 < 64 ∧ 0 < 63 := by decide +kernel

theorem wit_Quotients : world.iss.berth < 8 ∧ world.predIs 0 0 = true ∧ world.srcG 7 ≠ 0 ∧ world.srcG 14 = .ofNat 64 (2 ^ 63) := by
  decide +kernel

theorem wit_DivisionByZero : world.predIs 0 0 = true ∧ world.srcG 1 = 0 ∧ world.srcG 0 = 0 := by decide +kernel

theorem wit_ClzResult : world.iss.berth < 8 ∧ world.predIs 0 0 = true ∧ world.srcG 14 ≠ 0 := by decide +kernel

theorem wit_PopcCountsBits : world.iss.berth < 8 ∧ world.predIs 0 0 = true ∧ world.predIs 0 1 = false ∧ 31 < 32 ∧ 63 < 64 := by
  decide +kernel

theorem wit_BitFields : world.iss.berth < 8 ∧ world.predIs 0 0 = true := by decide +kernel

theorem wit_ImmediateResults : world.iss.berth < 8 ∧ world.predIs 0 0 = true := by decide +kernel

theorem wit_CompareResults :
    world.iss.berth < 8 ∧ (7 : BitVec 6).toNat < 8 ∧ (3 : BitVec 6).toNat < 4 ∧ world.predIs 0 0 = true := by decide +kernel

theorem wit_SelSelects : world.iss.berth < 8 ∧ 0 < 63 := by decide +kernel

theorem wit_NopDoesNothing :
    decodeSlot .scalar 0 = some [.nop] ∧ (VSlot.read 0).op .vb = 0 ∧ 16 % 16 = 0 ∧ 32 % 32 = 0 := by decide +kernel

theorem wit_StagingRegisters : world.predIs 0 0 = true ∧ world.iss.berth < 8 := by decide +kernel

theorem wit_HandleAndQueueReads :
    world.iss.berth < 8 ∧ world.predIs 0 0 = true ∧ (world.srcH 1).loaded = true ∧ (world.srcH 1).ready = true ∧
    (3 : BitVec 4).toNat < 4 := by decide +kernel

/-- A loop entry, and a berth within n loops. -/
def loop4 : LoopEntry := { start := 1, stop := 4, remaining := 3, index := 7 }
/-- A berth within n loops. -/
def loops (n : Nat) : State := onR world fun r => { r with loops := List.replicate n loop4 }

theorem wit_LidxReadsIndex :
    world.iss.berth < 8 ∧ world.predIs 0 0 = true ∧ (loops 6).iss.start.loops[5]? = some loop4 ∧ (5 : BitVec 12).toNat ≤ 5 ∧
    (loops 5).iss.start.loops.length ≤ 5 ∧ world.predIs 1 0 = false ∧ 6 ≤ (6 : BitVec 12).toNat := by decide +kernel

theorem wit_CopNoCoprocessor : world.iss.berth < 8 ∧ (127 : BitVec 7) ≠ 0 := by decide +kernel

theorem wit_Branches : world.iss.berth < 8 ∧ world.predIs 0 0 = true := by decide +kernel

theorem wit_Loops :
    world.iss.berth < 8 ∧ 1 ≤ (2047 : BitVec 12).toNat ∧ (2047 : BitVec 12).toNat ≤ 2047 ∧ 1 ≤ (255 : BitVec 8).toNat ∧
    (BitVec.ofNat 32 (world.srcG 1).toNat) = 0 ∧ (BitVec.ofNat 32 (world.srcG 2).toNat) ≠ 0 ∧
    (loops 5).iss.start.loops.length < 6 ∧ 6 ≤ (loops 6).iss.start.loops.length ∧ world.predIs 0 0 = true ∧
    (loops 1).iss.start.loops = [loop4] ∧ (loops 0).iss.start.loops = [] := by decide +kernel

/-! ## Witnesses: exceptions -/

/-- A core with a handler at 0x7FF; a berth in an open segment; one with a result outstanding. -/
def handled : State := world.onMyCore fun k => { k with tvec := 0x7FF }
/-- A berth in an open segment. -/
def opened : State := world.onMe fun b => { b with ckpt := some b.regs }
/-- A berth with a result outstanding. -/
def awaited : State := world.onMe fun b => { b with outstanding := [⟨0, 5, 9⟩] }

theorem wit_Entry :
    handled.iss.berth < 8 ∧ handled.me.ckpt = none ∧ handled.me.outstanding = [] ∧ handled.me.asked = [] ∧ handled.me.sup = false ∧
    handled.myCore.tvec.setWidth 11 ≠ (0 : BitVec 11) := by decide +kernel

theorem wit_TrapWaits :
    opened.iss.berth < 8 ∧ opened.me.ckpt.isSome = true ∧ awaited.me.ckpt = none ∧ awaited.me.outstanding ≠ [] := by decide +kernel

theorem wit_FailingTraps :
    superv.iss.berth < 8 ∧ superv.me.ckpt = none ∧ superv.me.outstanding = [] ∧ superv.me.asked = [] ∧ superv.me.sup = true ∧
    world.me.ckpt = none ∧ world.me.outstanding = [] ∧ world.me.asked = [] ∧ world.me.sup = false ∧
    world.myCore.tvec.setWidth 11 = (0 : BitVec 11) := by decide +kernel

theorem wit_SoftwareTrap :
    handled.iss.berth < 8 ∧ handled.predIs 0 0 = true ∧ handled.me.ckpt = none ∧ handled.me.outstanding = [] ∧
    handled.me.asked = [] ∧ handled.me.sup = false ∧ handled.myCore.tvec.setWidth 11 ≠ (0 : BitVec 11) := by decide +kernel

theorem wit_ReturnFromHandler : superv.iss.berth < 8 ∧ superv.me.sup = true := by decide +kernel

theorem wit_Halt :
    world.iss.berth < 8 ∧ world.iss.sup = false ∧ ({ superv with iss := { superv.iss with sup := true } } : State).iss.sup = true := by
  decide +kernel

/-! ## Witnesses: loads and stores -/

theorem wit_LoadResult :
    world.iss.berth < 8 ∧ world.predIs 0 0 = true ∧ ((world.srcG 3).toNat + (1 : BitVec 9).toNat * 8) % 2 ^ 22 = 0x2008 ∧ 0x2008 % 8 = 0 ∧
    world.bankCheck 0x2008 8 = .pass ∧ world.spadQuiet 0x2008 8 = true ∧ (world.myCluster.block 0x2008).mark = false ∧
    world.bankCheck 0x7FFF8 8 = .pass := by decide +kernel

theorem wit_ScratchpadTraps :
    world.predIs 0 0 = true ∧ ((world.srcG 10).toNat + (0 : BitVec 9).toNat * 2) % 2 ^ 22 % 2 ≠ 0 ∧ (world.srcG 12).toNat % 2 ^ 22 % 1 = 0 ∧
    (world.myCluster.rangeError world.mySlot spadMode 0x3FFFFF 1).isSome = true ∧
    (world.myCluster.rangeError world.mySlot spadMode 0x80000 1).isSome = true := by decide +kernel

theorem wit_HeldStores :
    world.iss.berth < 8 ∧ world.predIs 0 0 = true ∧ world.bankCheck 0x2000 8 = .pass ∧ 0x2000 % 8 = 0 ∧ world.bankCheck 0x2000 16 = .pass ∧
    0x2000 % 16 = 0 ∧ Usable world 1 65528 8 ⟨false, true, false⟩ ∧ runs (.relb ⟨9, 3, 0⟩) world = true := by
  unfold Usable; and_intros <;> decide +kernel

theorem wit_MemoryRequests :
    world.iss.berth < 8 ∧ world.odd = false ∧ world.predIs 0 0 = true ∧ Usable world 1 (world.srcG 2).toNat 8 ⟨true, false, false⟩ ∧
    ¬ ((3 : BitVec 2) = 3 ∧ (0 : BitVec 1) = 1) ∧ world.msReady 1 = .pass ∧ runs (.atom ⟨5, 1, 2, 5, 9, 1, 0⟩) world = true ∧
    runs (.atom ⟨5, 1, 2, 5, 0, 0, 1⟩) world = true := by unfold Usable; and_intros <;> decide +kernel

theorem wit_Bytes : table.wf = true ∧ (5 : Nat) ≠ 4 ∧ 7 < 8 ∧ Memory.wf [] = true := by decide +kernel

/-- Whether a handle is loaded, ready and valid, and of its page's present generation. -/
def current (h : BitVec 4) : Bool :=
  let x := world.srcH h
  x.loaded && x.ready && x.valid && x.leaf && (world.walk (x.vpn.toNat * 2 ^ 16)).gen == x.gen.toNat

theorem wit_HandleChecks :
    (world.srcH 2).loaded = false ∧ (world.srcH 3).loaded = true ∧ (world.srcH 3).ready = false ∧
    (world.srcH 4).loaded = true ∧ (world.srcH 4).ready = true ∧ (world.srcH 4).leaf = true ∧ current 4 = false ∧
    current 5 = true ∧ (world.srcH 5).fault = 0x0A ∧ current 8 = true ∧ (world.srcH 8).fault = 0x0C ∧
    current 9 = true ∧ (world.srcH 9).fault ∉ [(0 : BitVec 8), 0x0A, 0x0C] ∧
    current 1 = true ∧ (world.srcH 1).fault = 0 ∧ 65536 < 65529 + 8 ∧ 65528 + 8 ≤ 65536 ∧ 4 % 8 ≠ 0 ∧
    current 6 = true ∧ (world.srcH 6).fault = 0 ∧ (world.srcH 6).rd = false ∧ (world.srcH 6).w = false ∧ (world.srcH 6).atm = false ∧
    current 7 = true ∧ (world.srcH 7).fault = 0 ∧ (world.srcH 7).rd = true ∧ 0 < 4096 * (0 + 1) ∧ 4096 * 0 < 0 + 8 ∧
    (world.srcH 7).poison.getLsbD 0 = true ∧ (world.walk 0x50000).crit = false ∧ (world.loadHandle 0x50000).fault = 0 ∧
    Usable world 1 65528 8 ⟨true, true, true⟩ ∧ Usable world 7 4096 8 ⟨true, false, false⟩ := by unfold Usable; and_intros <;> decide +kernel

/-! ## Witnesses: synchronisation, rings and task queues -/

theorem wit_Waits :
    world.iss.berth < 8 ∧ world.odd = false ∧ ((0 : BitVec 1) = 0 ∨ (7 : BitVec 3) = 0) ∧ (world.srcG 3).toNat % 2 ^ 22 % 16 = 0 ∧
    world.bankCheck 0x2000 16 = .pass ∧ (world.srcG 1).toNat % 2 ^ 32 = 0 ∧ (world.srcG 2).toNat % 2 ^ 32 ≠ 0 ∧
    world.ringCheck 3 = .pass ∧ (world.myCluster.ring 3).isSome = true ∧ (world.srcG 13).toNat < ring4.count := by decide +kernel

theorem wit_FencesAndBarriers :
    world.iss.berth < 8 ∧ world.odd = false ∧ (1 : BitVec 3).toNat ≤ world.myScope ∧
    world.pathsQuiet world.iss.core world.iss.berth 0xFF = true ∧
    (world.inSlot (some .scalar)).barCheck ⟨6, 1, 0⟩ = .pass ∧ superv.me.sup = true := by decide +kernel

/-- World with other producer and consumer counters of its ring, at its first buffer. -/
def world0 : State := world.onMyCluster fun k => { k with rings := [(3, { ring4 with producer := 5, consumer := 5 })] }

theorem wit_BufferRings :
    world.iss.berth < 8 ∧ world.odd = false ∧ world.ringCheck 3 = .pass ∧ (world.myCluster.ring 3) = some ring4 ∧
    ring4.state (ring4.producer % ring4.count) = .empty ∧ ring4.state (ring4.consumer % ring4.count) = .full ∧
    ring4.producers = [] ∧ ring4.consumers = [] ∧
    world0.ringCheck 3 = .pass ∧ ring4.state (5 % ring4.count) ≠ .empty ∧ ring4.state (5 % ring4.count) ≠ .full := by decide +kernel

/-- World with a reservation granted in slot 2. -/
def grantedIn2 : State := world.onMe fun b => { b with asked := [⟨2, 44, some 0, none, [0, 1, 2, 3]⟩] }

theorem wit_Enqueues :
    let u := world.inSlot (some .scalar)
    let v := grantedIn2.inSlot (some .scalar)
    world.iss.berth < 8 ∧ world.odd = false ∧ allChecks (u.enqCheck 3 1) = .pass ∧ u.askedHere = none ∧ allChecks (v.enqCheck 3 1) = .pass ∧
    (v.askedHere.map fun a => a.answer) = some (some 0) ∧ (29 : BitVec 5).toNat ≤ 29 ∧ u.clusterCheck (world.srcG 1).toNat = .pass ∧
    runs (.enqt ⟨3, 1, 2, 1⟩) world = true ∧ world.ringOcc 0 2 = 0 ∧ (world.image 0x2000).length / 4 ≤ world.tqFree 0 2 := by
  decide +kernel

/-- World with the request of slot 2 unanswered; refused. -/
def askedIn2 (r : Option Nat) : State := world.onMe fun b => { b with asked := [⟨2, 44, r, none, [0, 1, 2, 3]⟩] }

theorem wit_Enqueues_refused :
    allChecks (((askedIn2 none).inSlot (some .scalar)).enqCheck 3 1) = .pass ∧
    (((askedIn2 none).inSlot (some .scalar)).askedHere.map fun a => a.answer) = some none ∧
    allChecks (((askedIn2 (some 1)).inSlot (some .scalar)).enqCheck 3 1) = .pass ∧
    (((askedIn2 (some 1)).inSlot (some .scalar)).askedHere.map fun a => a.answer) = some (some (0 + 1)) := by decide +kernel

/-- World with a full task queue 2. -/
def fullTq : State := world.setTq 0 2 (List.replicate 64 { words := [0, 1, 2, 3], units := 1, num := 0, since := 0, reserved := none })

theorem wit_Enqueues_full :
    fullTq.iss.berth < 8 ∧ fullTq.odd = false ∧ runs (.enqt ⟨3, 1, 2, 1⟩) fullTq = true ∧
    ¬ (fullTq.image 0x2000).length / 4 ≤ fullTq.tqFree 0 2 := by decide +kernel

theorem wit_Dequeues :
    world.iss.berth < 8 ∧ world.odd = false ∧ (world.srcG 3).toNat % 2 ^ 22 % 32 = 0 ∧ world.bankCheck 0x2000 256 = .pass ∧
    (world.takeable 2).isSome = true ∧ world.takeable 4 = none ∧ world.takeable 15 = none := by decide +kernel

theorem wit_ScratchpadWriteFrame :
    world.iss.berth < 8 ∧ world.myCluster.spad.wf = true ∧ 0x1FFF < 0x2000 ∧ 0x2000 + 64 ≤ 0x2040 ∧ 1 ≠ world.clNum := by decide +kernel

/-! ## Witnesses: operand queues, banks and descriptors -/

/-- A local queue of four entries of 128 bytes at 0x8000. -/
def queue4 : Queue := { Queue.zero with configured := true, cfg := .ofNat 64 (0x8000 + 2 * 2 ^ 40) }
/-- A berth with a local, an OPEN, a SPLICED and an unconfigured queue, and configurations in its registers. -/
def queued : State :=
  onR (setG world [(20, 0x8000 + 2 * 2 ^ 40), (21, 0x8000 + 2 * 2 ^ 40 + 2 ^ 44), (22, 0x1001)]) fun r =>
    ((r.putQ 0 queue4).putQ 1 { queue4 with splice := .openQ }).putQ 2 { queue4 with splice := .spliced, peerCore := 1, peerCfg := queue4.cfg }
/-- The same with the answer of a splice request in slot 2. -/
def spliceAnswered : State :=
  (queued.onMe fun b => { b with asked := [⟨2, 44, some 0, none, []⟩] }).onQueue 0 0 0 fun q => { q with splice := .splicing }

theorem wit_QueueInstructions :
    queued.iss.berth < 8 ∧ runs (.qcfg ⟨20, 3⟩) queued = true ∧ runs (.qcfg ⟨21, 3⟩) queued = true ∧ (queued.srcQ 0).splice ≠ .fed ∧
    (queued.liveQ 0).splice ≠ .spliced ∧ (queued.srcQ 2).splice ≠ .fed ∧ (queued.liveQ 2).splice = .spliced := by decide +kernel

theorem wit_QueueInstructions_splice : runs (.qspl ⟨22, 0⟩) spliceAnswered = true := by decide +kernel

/-- Registers that name banks: the banks 0 to 3, which the launch owns, and bank 31, which no launch owns. -/
def bankMasks : State := setG world [(20, 0xF), (21, 0x80000001), (22, 0x80000000), (23, 8)]

theorem wit_Banks :
    bankMasks.iss.berth < 8 ∧ bankMasks.odd = false ∧
    (∀ n ∈ (List.range 32).filter fun n => (bankMasks.srcG 20).getLsbD n, (bankMasks.myCluster.bank n).owner = some bankMasks.mySlot) ∧
    (31 ∈ (List.range 32).filter fun n => (bankMasks.srcG 21).getLsbD n) ∧ (bankMasks.myCluster.bank 31).owner ≠ some bankMasks.mySlot ∧
    (∀ m ∈ (List.range 32).filter fun n => (bankMasks.srcG 21).getLsbD n, m < 31 → (bankMasks.myCluster.bank m).owner = some bankMasks.mySlot) ∧
    (2 : BitVec 2) ≠ 3 ∧ runs (.bmode ⟨23, 2⟩) bankMasks = true := by decide +kernel

/-- The descriptor at an address of the scratchpad that a bundle reads. -/
def descAt (s : State) (a : Nat) : Desc := .ofNat 512 (s.iss.spad.read a 64)
/-- Scratchpad with a descriptor of R170 at 0x3000 and one of a reserved format at 0x3040. -/
def described : State :=
  let s := setG world [(20, 0x3000), (21, 0x3040), (22, 0x3FFC0)]
  let m := (s.myCluster.spad.write 0x3000 64 (2 * 16 + 2 ^ 128 * 7 + 2 ^ 192 * (2 ^ 59 + 7))).write 0x3040 64 (2 ^ 512 - 1)
  let s := s.onMyCluster fun k => { k with spad := m }
  { s with iss := { s.iss with spad := m } }

theorem wit_Descriptors :
    described.iss.berth < 8 ∧ described.predIs 0 0 = true ∧ described.odd = false ∧ (described.srcG 20).toNat % 2 ^ 22 = 0x3000 ∧
    0x3000 % 64 = 0 ∧ described.bankCheck 0x3000 64 = .pass ∧ described.spadQuiet 0x3000 64 = true ∧
    (described.myCluster.block 0x3000).mark = false ∧ (descAt described 0x3000).bad = none ∧
    (described.inSlot (some .scalar)).rangeCheck (descAt described 0x3000) = .pass ∧
    described.bankCheck 0x3040 64 = .pass ∧ described.spadQuiet 0x3040 64 = true ∧ (descAt described 0x3040).bad.isSome = true ∧
    described.bankCheck 0x3FFC0 64 = .pass := by decide +kernel

/-- Two queues with an entry each that is present, of the same bytes and of others. -/
def checked : State :=
  let s := onR world fun r => ((r.putQ 0 { queue4 with tail := 1 }).putQ 1 { queue4 with cfg := .ofNat 64 (0x9000 + 2 * 2 ^ 40), tail := 1 }).putQ 2
    { queue4 with cfg := .ofNat 64 (0xA000 + 2 * 2 ^ 40), tail := 1 }
  seen (s.onMyCluster fun k => [0x8000, 0x9000, 0xA000].foldl (fun (k : Cluster) a => k.setBlock a { Block.reset with present := true })
    { k with spad := k.spad.write 0xA000 4 1 })

theorem wit_Checks :
    checked.iss.berth < 8 ∧ checked.predIs 0 0 = true ∧ checked.srcG 1 = checked.srcG 0 ∧ checked.srcG 2 ≠ checked.srcG 1 ∧
    checked.srcK 0 ≠ checked.srcK 1 ∧ checked.srcK 1 = checked.srcK 2 ∧ runs (.chkq ⟨0x00, 0x20⟩) checked = true ∧
    (checked.readEntries [entry7 0x00, entry7 0x20]).entriesAgree (entry7 0x00) (entry7 0x20) = true ∧
    runs (.chkq ⟨0x00, 0x40⟩) checked = true ∧
    (checked.readEntries [entry7 0x00, entry7 0x40]).entriesAgree (entry7 0x00) (entry7 0x40) = false := by decide +kernel

/-! ## Witnesses: special registers and leases -/

theorem wit_SpecialReads :
    superv.iss.berth < 8 ∧ (0x051 : BitVec 12).toNat ∈ specialIndexes ∧ superv.predIs 0 0 = true ∧ superv.me.sup = true ∧
    superv.flagsReady = true ∧ (0x000 : BitVec 12).toNat ∈ specialIndexes ∧ ((0x000 : BitVec 12) = 0x050 → superv.me.sup = true) := by
  decide +kernel

theorem wit_SpecialWrites_user :
    world.me.sup = false ∧ ∀ i ∈ [0x000, 0x005, 0x006, 0x020, 0x030, 0x040],
      (BitVec.ofNat 12 i).toNat ∈ specialIndexes ∧
      (BitVec.ofNat 12 i).toNat ∉ [0x003, 0x004, 0x007, 0x008, 0x010, 0x011, 0x012, 0x013, 0x051] := by decide +kernel

theorem wit_SpecialWrites :
    superv.iss.berth < 8 ∧ (∀ i ∈ [0x000, 0x001, 0x002, 0x003, 0x004, 0x005, 0x006, 0x007, 0x008, 0x010, 0x011, 0x012, 0x013, 0x020, 0x021, 0x022,
      0x030, 0x040, 0x041, 0x050, 0x051], (BitVec.ofNat 12 i).toNat ∈ specialIndexes) ∧ superv.predIs 0 0 = true ∧ superv.me.sup = true ∧
    superv.flagsReady = true ∧ superv.odd = false ∧ superv.ringcfgCheck ring4.cfg = .pass := by decide +kernel

theorem wit_RingConfiguration :
    world.iss.berth < 8 ∧ world.ringcfgCheck ring4.cfg = .pass ∧ ringEnable ring4.cfg = true ∧
    world.ringcfgCheck (.ofNat 64 (5 * 2 ^ 58)) = .pass ∧ ringEnable (.ofNat 64 (5 * 2 ^ 58)) = false := by decide +kernel

/-- A lease of core 0: pending, and testing. -/
def lease0 : Lease := ⟨0, 0, 1, 200, 0, 0⟩
/-- The berth in supervisor mode with a lease of core 0. -/
def leased : State := { superv with leases := [lease0] }

theorem wit_LeaseStatus :
    superv.iss.berth < 8 ∧ superv.odd = false ∧ superv.me.sup = true ∧ superv.predIs 0 0 = true ∧ (superv.srcG 11).toNat / 2 ^ 24 % 2 ^ 8 = 6 ∧
    superv.leaseReq 6 0 = 0 ∧ superv.leaseReq 0 0x3FFFFF ≠ 0 ∧ leased.leaseReq 0 0 ≠ 0 ∧
    leased.leaseEnd 0 0 = 0 ∧ leased.leaseOf 0 0 = some lease0 ∧ superv.leaseEnd 0 0 ≠ 0 := by decide +kernel

/-! ## Witnesses: launches and tasks -/

/-- The address of the large page. -/
def page32 : Nat := 0x20000000
/-- A launch record at 0x100000 of core 0 with one program, one start vector and banks, its tables in the large page. -/
def recordMem (m : Memory) : Memory :=
  let put (m : Memory) (a n v : Nat) : Memory := m.write a n v
  let m := put m 0x100000 8 (1 + 1 * 2 ^ 16 + 0x10 * 2 ^ 24 + 2 * 2 ^ 32)
  let m := put (put m 0x100010 8 0x2000000) 0x100018 4 1
  let m := put (put (put m 0x100028 8 0x2000100) 0x100030 4 1) 0x100038 8 0x2000200
  let m := put m 0x100040 8 0x2010000
  let m := put (put m 0x100080 2 0x0101) 0x100088 4 1
  let m := put m page32 8 (5 * 2 ^ 16 + 9 * 2 ^ 32)
  let m := put (put m (page32 + 0x100) 8 0x2001000) (page32 + 0x10A) 6 (1 + 5 * 2 ^ 16 + 1 * 2 ^ 32)
  put (put m (page32 + 0x200) 4 0xF) (page32 + 0x1000) 8 0x1234
/-- The device with the record and its page tables, and an event ring. -/
def device : State :=
  { State.reset with
    mem := recordMem table
    ctrl := { Ctrl.reset with xroot := 0x10000, evqset := true, evqbase := 0x200000, evqlog2 := 4 } }
/-- A program of one bundle at bundle 5 of core 0, in the large page. -/
def program0 : Program := ⟨page32 + 0x1000, 0, 1, 5, 1⟩
/-- A launch of core 0 whose program is loaded. -/
def loaded0 : Launch := { placedLaunch 0 with addr := 0x100000, ctxarea := page32 + 0x2000, programs := [program0] }
/-- A loop nest of three iterations. -/
def nest0 : Nest := { ndim := 1, tlevel := 0, entry := 5, order := 0, arg := 3, bounds := [10], steps := [4] }
/-- A task of the launch. -/
def task0 : Task := { placedTask 5 with args := [9, 8] }
/-- A task that waits. -/
def cand (t : Task) : Candidate :=
  { task := t, evicted := false, ctxSlot := 0, since := 0, oldBerth := 0, heldEngine := none, unread := false, lateFlags := 0 }
/-- The code of a rejected record. -/
def rejected (s : State) (a : Nat) : Bool :=
  match s.readLaunch a with
  | .ok _ => false
  | .error _ => true

/-- The record's address in the FIFO. -/
def fifoOne : State := { device with fifo := [0x100000] }
/-- An address without a record in the FIFO, with slots 0 and 1 taken. -/
def fifoBad : State := { device with fifo := [0x100100], launches := [(0, loaded0), (1, loaded0)] }

theorem wit_LaunchAdmission :
    fifoOne.fifo.length < 16 ∧ 16 ≤ (List.replicate 16 (7 : Word)).length ∧ fifoOne.waits [1, 2, 3] = false ∧ fifoOne.fifo = [0x100000] ∧
    fifoOne.launch 0 = none ∧ fifoOne.tablesQuiet 0x100000 = true ∧ rejected fifoOne 0x100000 = false ∧
    fifoBad.waits [1, 2, 3] = false ∧ 2 < 16 ∧ fifoBad.launch 2 = none ∧ (∀ n, n < 2 → fifoBad.launch n ≠ none) ∧
    fifoBad.tablesQuiet 0x100100 = true ∧ rejected fifoBad 0x100100 = true := by decide +kernel

/-- The launch with its program to load to core 0; the same with a bundle of another launch in its range. -/
def toLoad : State := { device with launches := [(0, { loaded0 with toLoad := [(0, 0)], toOffer := [0] })] }
/-- A bundle of another launch stands in the program's range. -/
def toLoadHeld : State := toLoad.setCore 0 { toLoad.core 0 with imem := [(5, ⟨7, some 3⟩)] }

theorem wit_ProgramLoads :
    toLoad.launch 0 = some { loaded0 with toLoad := [(0, 0)], toOffer := [0] } ∧ loaded0.programs[0]? = some program0 ∧
    (0, 0) ∈ ({ loaded0 with toLoad := [(0, 0)], toOffer := [0] } : Launch).toLoad ∧
    (toLoad.core 0).rangeHeld 0 program0.firstBundle program0.bundles = false ∧
    toLoad.migratingIn program0.va (32 * program0.bundles) = false ∧ toLoadHeld.launch 0 = toLoad.launch 0 ∧
    (toLoadHeld.core 0).rangeHeld 0 program0.firstBundle program0.bundles = true := by decide +kernel

/-- The launch with a loop nest to walk, from an iteration on. -/
def walking (n : Nat) : State := { device with launches := [(0, { loaded0 with nests := [nest0], iteration := n })] }
/-- The launch with its walker past its last record. -/
def walked : State := { device with launches := [(0, { loaded0 with nests := [nest0], record := 1 })] }

theorem wit_Walkers :
    walked.launch 0 = some { loaded0 with nests := [nest0], record := 1 } ∧ [nest0][1]? = none ∧
    (walking 3).launch 0 = some { loaded0 with nests := [nest0], iteration := 3 } ∧ nest0.total ≤ 3 ∧
    (walking 2).launch 0 = some { loaded0 with nests := [nest0], iteration := 2 } ∧ 2 < nest0.total ∧ loaded0.preempted = false ∧
    loaded0.terminated = false ∧ (walking 2).walkerBusy 0 = false ∧
    (((walking 2).nestCores { loaded0 with nests := [nest0], iteration := 2 } nest0).find? fun d =>
      decide (loaded0.cursor ≤ d) && ((walking 2).seat { loaded0 with nests := [nest0], iteration := 2 } d).isSome) = some 0 := by
  decide +kernel

/-- A packet of one unit with a header. -/
def packet (h : Nat) : Packet := ⟨[.ofNat 64 h, 1, 2, 3], 1, 0, 0, none⟩
/-- Packets at the heads of task queues: a TASK packet, one of the other kind and a malformed one; queue 4 has a spill ring of two units
with one packet. -/
def packets : State :=
  let m := (((walked.mem.write (0x300000 + 32 * 4) 8 0x400000).write (0x300000 + 32 * 4 + 8) 1 1).write (0x300000 + 32 * 4 + 0xC) 4 2).write
    (0x300000 + 32 * 4 + 0x10) 4 1
  { walked with
    mem := m
    ctrl := { walked.ctrl with spilltab := 0x300000 }
    clusters := [(0, { Cluster.reset with
      tqs := [(0, [packet (5 * 2 ^ 8)]), (1, [packet (5 * 2 ^ 8 + 2 ^ 26)]), (2, [packet (5 * 2 ^ 3)])] })] }

theorem wit_Dispatchers :
    packets.tq 0 0 = [packet (5 * 2 ^ 8)] ∧ (packet (5 * 2 ^ 8)).reserved = none ∧
    ([packet (5 * 2 ^ 8), packet (5 * 2 ^ 8 + 2 ^ 26), packet (5 * 2 ^ 3)].any fun p => !p.malformed && p.isTask) = true ∧
    ([packet (5 * 2 ^ 8), packet (5 * 2 ^ 8 + 2 ^ 26), packet (5 * 2 ^ 3)].any fun p => p.malformed) = true ∧
    packets.ringOcc 0 4 ≠ 0 ∧ packets.ringReserved 0 4 (packets.ringRd 0 4) = none ∧
    (packets.ringPacket 0 4 (packets.ringRd 0 4)).1 ≤ packets.tqFree 0 4 := by decide +kernel

/-- The launch with a task in berth 2 of core 0. -/
def occupied (x : Berth) : State := walked.setCore 0 { walked.core 0 with berths := vset (walked.core 0).berths 2 x }
/-- A berth with the task. -/
def tasked (st : BerthStatus) : Berth := { Berth.reset with status := st, task := some task0 }

theorem wit_LaunchCompletion :
    walked.launchDone 0 { loaded0 with nests := [nest0], record := 1 } = true ∧ walked.waits [1, 2, 3] = false ∧
    (occupied (tasked .ready)).launchDone 0 { loaded0 with nests := [nest0], record := 1 } = false := by decide +kernel

theorem wit_LaunchControl : walked.launch 0 = some { loaded0 with nests := [nest0], record := 1 } := by decide +kernel

/-- The task of an iteration of a loop nest. -/
def iteration0 : Task := { task0 with origins := [7, 0, 0, 0, 0, 0] }

theorem wit_TaskStart : 7 < 8 ∧ task0.origins = [] ∧ iteration0.origins ≠ [] ∧ 24 ≤ 31 ∧ 31 < 32 ∧ 15 < 16 ∧ 0 < 7 ∧ 3 < 4 := by decide +kernel

/-- Two tasks that wait at core 0. -/
def waitingTwo : State :=
  walked.setCore 0 { walked.core 0 with waiting := [cand task0, { cand task0 with since := 9, task := { task0 with basePrio := 1, ages := false } }] }

theorem wit_TaskPlacement :
    walked.choices 0 = [] ∧ (bestChoice (waitingTwo.choices 0)).isSome = true ∧
    ((waitingTwo.choices 0).any fun x => match x.waiting with
      | some w => !w.evicted && (waitingTwo.launch x.task.slot).isSome
      | none => false) = true ∧ loaded0.redundant = false ∧
    waitingTwo.seat { loaded0 with nests := [nest0], record := 1 } 0 = some (0, 0) := by decide +kernel

theorem wit_TaskAging : 1 ≠ 0 := by decide

/-- A failed task in DRAINING with successors, which notifies them or does not; the state with an event of its completion engine waiting. -/
def retiring (failSucc : Bool) (l : List Word) : State :=
  occupied { tasked .draining with failed := true, task := some { task0 with succs := l, failSucc := failSucc } }
def engineHeld (s : State) : State :=
  { s with raised := [{ code := 9, lslot := 0, berth := 2, core := 3, arg0 := 0, arg1 := 0, command := none }] }

theorem wit_Retirement :
    let s := retiring true [5]
    ((s.berth 0 2).task.bind Task.partner) = none ∧ (s.berth 0 2).task.isSome = true ∧ (s.berth 0 2).status = .draining ∧
    s.allDone 0 2 = true ∧
    (s.raised.all fun e => !(e.code == 0xE && e.core == 0 && e.berth == 2)) = true ∧
    ((s.launch task0.slot).map fun l => l.terminated) = some false ∧ s.recordReady 0 5 = true ∧ (engineHeld s).recordReady 0 5 = false ∧
    (engineHeld s).allDone 0 2 = true ∧ (retiring false [5]).engineWaits 0 = false ∧ (engineHeld (retiring true [])).engineWaits 0 = true ∧
    ((occupied (tasked .ready)).berth 0 2).status ≠ .draining := by decide +kernel

/-- The launch pre-empted, its task at a point of eviction; the task in EVICTING; a task past its time slice. -/
def preemptedAt : State :=
  { occupied { tasked .ready with afterPre := true } with
    launches := [(0, { loaded0 with nests := [nest0], record := 1, preempted := true })] }
/-- The task in EVICTING. -/
def evicting : State := occupied { tasked .evicting with evictCause := 4 }

theorem wit_Eviction :
    (preemptedAt.berth 0 2).partner = none ∧ preemptedAt.evictDue 0 2 = true ∧ (occupied (tasked .ready)).evictDue 0 2 = false ∧
    (evicting.berth 0 2).task = some task0 ∧ evicting.launch task0.slot = some { loaded0 with nests := [nest0], record := 1 } ∧
    (evicting.berth 0 2).status = .evicting ∧ evicting.resultsDone 0 2 = true ∧ (evicting.berth 0 2).ckpt = none ∧
    (evicting.berth 0 2).held = [] ∧ evicting.walks = [] ∧ evicting.accesses = [] ∧
    ({ loaded0 with nests := [nest0], record := 1 } : Launch).freeCtx 0 = some 0 ∧
    evicting.migratingIn (({ loaded0 with nests := [nest0], record := 1 } : Launch).ctxAddr 0 0) 16384 = false := by
  decide +kernel

/-- A core with a task in every berth, the third beyond its time slice, and one that waits. -/
def sliced : State :=
  walked.setCore 0 { walked.core 0 with
    berths := vset (Vector.replicate 8 (tasked .ready)) 2 { tasked .ready with resident := 65536 }, waiting := [cand task0] }

theorem wit_Eviction_slice : 2 ∈ sliced.evictCauses 0 2 := by decide +kernel

/-! ## Witnesses: messages and accesses -/

/-- A configured queue of OPEN state with one entry. -/
def openQueue : Queue := { Queue.zero with configured := true, cfg := .ofNat 64 (0x2000 + 2 * 2 ^ 40), splice := .openQ, head := 1, tail := 2 }
/-- Two cores with a task each: berth 0 of core 0 awaits an answer to request 1, its queue 1 splicing; that of core 1 has an open queue 1. -/
def two : State :=
  let s := { device with launches := [(0, loaded0)], now := 5 }
  let s := s.setBerth 0 0 { tasked .ready with
    asked := [⟨1, 1, none, none, []⟩], regs := { Regs.reset with q := vset Regs.reset.q 1 { openQueue with splice := .splicing } }, awaiting := some 1 }
  s.setBerth 1 0 { tasked .ready with regs := { Regs.reset with q := vset Regs.reset.q 1 openQueue } }
/-- The same with a message 1 on its way. -/
def withMsg (s : State) (m : Msg) : State := { s with messages := [(1, m)] }
/-- The same with the queues spliced. -/
def spliced : State :=
  (two.onQueue 1 0 1 fun q => { q with splice := .fed, peerCore := 0, peerBerth := 0, peerQueue := 1 }).onQueue 0 0 1 fun q =>
    { q with splice := .spliced, peerCore := 1, peerBerth := 0, peerQueue := 1, peerCfg := q.cfg, remoteTail := 2, mirrored := 1 }
/-- The same with nothing asked. -/
def gaveUp (s : State) : State := s.onBerth 0 0 fun b => { b with asked := [] }
/-- Task queue 1 of cluster 0 full. -/
def crowded : State := two.setTq 0 1 (List.replicate 64 (packet 0))

theorem wit_Reservations :
    let s := withMsg two (.enq 0 0 1 0 1 1 0)
    let t := withMsg crowded (.enq 0 0 1 0 1 1 0)
    s.asks 0 0 1 1 = true ∧ (((s.received 1).carryReply (s.marked.contains 1) 0 (clusterOf 0)).reservePlace 0 1 1 0).isSome = true ∧
    t.asks 0 0 1 1 = true ∧ (((t.received 1).carryReply (t.marked.contains 1) 0 (clusterOf 0)).reservePlace 0 1 1 0).isNone = true := by decide +kernel

theorem wit_SpliceMessages :
    let s := withMsg two (.qspl 0 0 1 1 0x4001)
    let g := withMsg (gaveUp two) (.qspl 0 0 1 1 0x4001)
    let r := withMsg (gaveUp spliced) (.qsplReply 0 0 1 1 0 0x4001 openQueue.cfg 2 1 1)
    let a := withMsg two (.qsplReply 0 0 1 1 1 0x4001 openQueue.cfg 2 1 1)
    s.asks 0 0 1 1 = true ∧ (s.received 1).spliceReason 0 0 1 0x4001 = 0 ∧ g.asks 0 0 1 1 = false ∧ r.asks 0 0 1 1 = false ∧
    a.asks 0 0 1 1 = true ∧ (Map.get? a.messages 1).isSome = true ∧ (withMsg spliced (.notice 1 0 1)).shadow 1 0 = false ∧
    (((withMsg spliced (.unsplice 1 0 1 0 0 1)).received 1).messages.any fun e => e.2.feeds 1 0 1) = false ∧
    (spliced.berth 0 0).holdsEntry 1 = false := by decide +kernel

/-- Core 1's queue cannot be spliced: it is fed already. -/
def spliceRefused : State := withMsg (two.onQueue 1 0 1 fun q => { q with splice := .fed }) (.qspl 0 0 1 1 0x4001)

theorem wit_SpliceMessages_refused :
    spliceRefused.asks 0 0 1 1 = true ∧ (spliceRefused.received 1).spliceReason 0 0 1 0x4001 ≠ 0 := by decide +kernel

theorem wit_SplicedData :
    Map.get? (withMsg spliced (.data 1 0 1 1 1 1 1)).messages 1 = some (.data 1 0 1 1 1 1 1) ∧
    (withMsg spliced (.data 1 0 1 1 1 1 1)).shadow 1 0 = false ∧
    (withMsg { spliced with clusters := [(0, { Cluster.reset with banks := ownBanks })] } (.data 1 0 1 1 1 1 1)).ownsRange 1 0
      (openQueue.slotAddr 1) openQueue.esize = true ∧
    (withMsg spliced (.data 1 0 1 1 1 1 1)).ownsRange 1 0 (openQueue.slotAddr 1) openQueue.esize = false := by decide +kernel

/-- A load whose reply berth 0 of core 0 awaits. -/
def load4 : Access :=
  { core := 0, berth := 0, slot := 0, kind := 0, fn := 0, handle := 0, pa := 0x400000, size := 4, data := 7, cmp := 7, signed := true, dest := 5,
    sc := false, scope := 1, ticket := none, ms := false, done := false, value := 0x80000000, marked := false, flags := 0, resends := 0, sent := 0,
    launch := 0, mark := false, remote := true }
/-- Two cores with an access 1 of the first, whose result is outstanding. -/
def accessed (a : Access) : State :=
  { two.onBerth 0 0 (fun b => { b with outstanding := [⟨0, 5, 1⟩] }) with accesses := [(1, a)] }
/-- A walk of page 5 for handle 1, and the page migrating. -/
def walk5 : PendingWalk := { core := 0, berth := 0, handle := 1, va := 0x50008 }
/-- The leaf of page 5 with MIG. -/
def migLeaf : Nat := 1 + 2 + 8 + 16 + 32 + 0x200 + 0x40 * 2 ^ 16 + 5 * 2 ^ 52
/-- A migration of page 5 whose start has been made. -/
def migrating : State :=
  { two with
    mem := two.mem.write (0x13000 + 8 * 5) 8 migLeaf
    migrations := [⟨0x50000, 0x80, true, []⟩]
    refusedWrites := [(1, (0x400008, 4, 9)), (2, (0x500000, 4, 9))] }

theorem wit_AccessProgress_walk :
    let find (s : State) : Option PendingWalk := s.walks.find? fun w => w.core == 0 && w.berth == 0 && w.handle == 1
    let s : State := { two with walks := [walk5] }
    let m : State := { migrating with walks := [walk5] }
    find s = some walk5 ∧ (s.walk walk5.va).mig = false ∧ (s.walk walk5.va).crit = false ∧ (s.walk walk5.va).hasLeaf = true ∧
    find m = some walk5 ∧ (m.walk walk5.va).hasLeaf = true ∧ (m.walk walk5.va).mig = true := by decide +kernel

theorem wit_AccessProgress_perform :
    let a := { load4 with sc := true, scope := 5 }
    let s := accessed load4
    Map.get? (accessed a).accesses 1 = some a ∧ a.sc = true ∧ a.ticket = none ∧ a.scope ≤ 5 ∧
    load4.done = false ∧ s.accessTurn 1 load4 = true ∧ (s.l1Read load4).isSome = false ∧ s.unreachable load4.pa = false ∧
    s.moving load4.pa = false ∧ s.accessBehind load4 = false ∧ s.accessShut load4 = false := by decide +kernel

theorem wit_AccessProgress_reply :
    let a := { load4 with done := true }
    let s := accessed a
    Map.get? s.accesses 1 = some a ∧ a.marked = false ∧ ({ a with marked := true } : Access).marked = true ∧ a.berth < 8 ∧
    ((s.berth a.core a.berth).outstanding.any fun p => p.req == 1) = true := by decide +kernel

theorem wit_AtomFunctions : 2 ^ 64 - 1 < 2 ^ (8 * 8) ∧ 2 ^ 32 - 1 < 2 ^ (8 * 4) := by decide

/-- Page 5 mapped and nothing due. -/
def quiet : State := { device with ctrl := { device.ctrl with xroot := 0x10000 } }
/-- A migration of page 5 with nothing else in the device. -/
def migrateOnly : State :=
  { migrating with launches := [], cores := [], refusedWrites := migrating.refusedWrites }

theorem wit_Migration :
    let va : Word := 0x50000
    (quiet.walk va.toNat).fault = 0 ∧ (quiet.walk va.toNat).mig = false ∧ quiet.pageQuiet va.toNat = true ∧
    (migrateOnly.migrations.find? fun m => m.va == va.toNat / (migrateOnly.walk va.toNat).page.2 * (migrateOnly.walk va.toNat).page.2) =
      some ⟨0x50000, 0x80, true, []⟩ ∧
    (migrateOnly.walk va.toNat).hasLeaf = true ∧ (migrateOnly.walk va.toNat).mig = true ∧
    migrateOnly.rangeQuiet va.toNat ((migrateOnly.walk va.toNat).page.1 * 2 ^ 16) (migrateOnly.walk va.toNat).page.2 = true ∧
    migrateOnly.walks = [] ∧ migrateOnly.launches = [] ∧ migrateOnly.fifo = [] ∧
    (migrateOnly.migrationAt 0x400008).isSome = true ∧ migrateOnly.migrationAt 0x500000 = none := by decide +kernel

/-- An access whose turn it is that does not go on as its request is sent: a read that L1 serves; one of another package, no port of which
is in service; one whose line's home moves. -/
def l1Hit : State := { (accessed load4) with
  clusters := [(0, { Cluster.reset with l1 := [(0x400000 / 64, ⟨0, 0, 0, 2 ^ 40⟩)] })] }
/-- No port is in service. -/
def portless : State := { (accessed { load4 with pa := 2 ^ 51 + 2 ^ 40 }) with leases := (List.range 36).map fun q => ⟨6, q, 2, 0, 0, 0⟩ }
/-- The home of the access's line is in test and its lines have not moved. -/
def homeless : State := { (accessed load4) with leases := [⟨4, homeIndex (0x400000 / 256), 2, 0, 0, 0⟩] }

/-- A request of the same core is on its way to the home of the access's line. -/
def behind : State := { (accessed load4) with messages := [(7, .bar 0 0 0 (.ofNat 64 ((accessed load4).homeSlice 0x400000 * 2 ^ 30)) false)] }
/-- The same load as a request that the core's window counts. -/
def load5 : Access := { load4 with remote := false }
/-- The window of the core to that home is full. -/
def shut : State :=
  { (accessed load5) with windows := [(128 * coreSource 0 + (accessed load4).homeSlice 0x400000, { Window.reset with out := 64 })] }

theorem wit_AccessProgress_otherwise :
    behind.accessTurn 1 load4 = true ∧ behind.unreachable 0x400000 = false ∧ behind.accessBehind load4 = true ∧
    shut.accessShut load5 = true ∧ shut.accessBehind load5 = false ∧ shut.moving 0x400000 = false ∧ shut.accessTurn 1 load5 = true ∧
    l1Hit.accessTurn 1 load4 = true ∧ (l1Hit.l1Read load4).isSome = true ∧
    portless.accessTurn 1 { load4 with pa := 2 ^ 51 + 2 ^ 40 } = true ∧ (portless.l1Read { load4 with pa := 2 ^ 51 + 2 ^ 40 }).isSome = false ∧
    portless.unreachable (2 ^ 51 + 2 ^ 40) = true ∧
    homeless.accessTurn 1 load4 = true ∧ homeless.unreachable 0x400000 = false ∧ homeless.moving 0x400000 = true := by
  decide +kernel

theorem wit_AccessMemory :
    let st : Access := { load4 with kind := 1 }
    let at_ : Access := { load4 with kind := 2, fn := 3 }
    let ov : Access := { load4 with kind := 2, fn := 11 }
    ([load4, st, at_, ov].all fun a => let s := accessed a
      (Map.get? s.accesses 1 == some a) && !a.done && !a.sc && s.accessTurn 1 a && !(a.kind == 0 && (s.l1Read a).isSome) &&
        !(s.unreachable a.pa) && !(s.moving a.pa) && !(s.accessBehind a) && !(s.accessShut a) && s.mem.wf) = true ∧
    Map.get? l1Hit.accesses 1 = some load4 ∧ (l1Hit.l1Read load4).isSome = true ∧ load4.kind = 0 ∧ st.kind = 1 ∧ at_.fn ≠ 11 := by
  decide +kernel

/-! ## Witnesses: accumulates, exchanges, barriers and collectives -/

/-- An accumulate of berth 0 of core 0 on its way: normal, with command 1. -/
def addend : Addend := ⟨0, 0, 0, some 1, 0, 1, 1, false, none, 1, 1, false, false, false, false, 0, false, false⟩
/-- The same under way, accepted and in application. -/
def applying : Addend := { addend with cmd := none, decided := true, accepted := true }
/-- A forced one. -/
def forcedAddend : Addend := { addend with cmd := none, forced := true }
/-- One kept at its source. -/
def keptAddend : Addend := { addend with kept := true }
/-- The state with an accumulate as message 1, and with one that waits at its slice. -/
def accumulated (a : Addend) : State := withMsg two (.acc a)
/-- An accumulate that waits at its slice. -/
def accumulateWaits (a : Addend) : State := { accumulated a with forced := [(two.homeSlice 0, [1])] }
/-- Berth 0 of core 0 with an old entry 1 in its residual table. -/
def residual1 : State :=
  (two.setCluster 0 { Cluster.reset with banks := ownBanks }).putResidual loaded0 0 0 1 { line := 0, age := 4096, state := 1, mark := 1, value := 77 }

theorem wit_AccumulateArrival :
    addend.decided = false ∧ addend.forced = false ∧ (accumulated addend).target addend.line = .dram ∧
    (accumulated addend).inFlight addend.line < 2 ∧
    (accumulated addend).acceptedNow 0 0 ((accumulated addend).accSlice addend.line) < addend.quota ∧
    Map.getD (accumulated addend).forced ((accumulated addend).accSlice addend.line) [] = [] ∧
    ({ accumulated addend with forced := [((accumulated addend).accSlice addend.line, [7])] } : State).forced ≠ [] ∧
    (accumulated { addend with quota := 0 }).target addend.line = .dram ∧
    ({ addend with quota := 0 } : Addend).quota ≤ (accumulated addend).acceptedNow 0 0 0 ∧
    forcedAddend.decided = false ∧ forcedAddend.forced = true ∧ addend.kept = false ∧ (accumulated addend).unreachable addend.line = false ∧
    keptAddend.kept = true ∧ (accumulated keptAddend).moving keptAddend.line = false ∧
    ({ accumulated keptAddend with leases := [⟨4, homeIndex 0, 2, 0, 0, 0⟩] } : State).moving keptAddend.line = true ∧
    ({ accumulated { addend with line := 2 ^ 51 + 2 ^ 40 } with leases := portless.leases } : State).unreachable (2 ^ 51 + 2 ^ 40) = true := by
  decide +kernel

theorem wit_AccumulateProgress :
    applying.forced = false ∧ applying.accepted = true ∧ applying.applied = false ∧ applying.decided = true ∧ applying.entry = none ∧
    applying.replied = false ∧ (accumulated applying).launch applying.slot ≠ none ∧
    (Map.getD (accumulated applying).forced ((accumulated applying).accSlice applying.line) []).contains 1 = false ∧
    Map.getD (accumulateWaits applying).forced (two.homeSlice 0) [] = [1] ∧ forcedAddend.forced = true ∧ forcedAddend.entry = none ∧
    ((accumulateWaits forcedAddend).messages.any fun x => x.2.normalInFlight forcedAddend.line && x.1 != 1) = false ∧
    residual1.launches = [(0, loaded0)] ∧ loaded0.hasTables 0 = true ∧
    residual1.mustForce 0 0 0 (residual1.residual loaded0 0 0 1) = true := by decide +kernel

/-- An engine command of berth 0 of core 0. -/
def commandOf (w : Work) : Command :=
  { core := 0, berth := 0, slot := 0, task := 0, op := 1, path := 3, work := w, sync := none, rel := none, append := none, needCrit := false,
    needMs := false, held := false, push := none, done := 0, checked := false, gens := [], suspended := false, marked := false, tainted := [],
    pts := 0, maxTs := 0, flags := 0, sent := false, dropped := [], lost := false, begun := [], frames := [], order := 0, unread := [] }
/-- An exchange of 128 bytes to core 0, between the banks 0 and 1, in barrier 1. -/
def exchange : Work := .xst 0x1234 0 128 0 1 0 0 1
/-- The state with a packet of the exchange as message 1, of a phase. -/
def exchanged (tag : Nat) (early : Bool) : State :=
  { withMsg (two.setCluster 0 { Cluster.reset with banks := ownBanks }) (.xst 1 0 tag 0 128 5 early) with
    commands := [(1, commandOf exchange)] }
/-- The early buffer of cluster 0 full. -/
def exchangeFull : State :=
  { exchanged 1 false with messages := (1, .xst 1 0 1 0 128 5 false) :: (List.range 16).map fun i => (i + 2, .xst 1 0 1 0 128 5 true) }

/-- An earlier exchange to the same bytes whose packet is still on its way. -/
def exchangeBehind : State :=
  { exchanged 0 false with
    messages := [(1, .xst 1 0 0 0 128 5 false), (2, .xst 2 0 0 0 128 6 false)]
    commands := [(1, { commandOf exchange with order := 1 }), (2, commandOf exchange)] }

theorem wit_ExchangeArrival :
    let held (s : State) : Nat := (s.messages.filter fun e => match e.2 with
      | .xst _ c _ _ _ _ x => c == 0 && x
      | _ => false).length
    (exchanged 0 false).phase 0 0 1 = 0 ∧ (((exchanged 0 false).cluster 0).bank 1).mode = .scratchpad ∧
    (((exchanged 0 false).cluster 0).bank 1).owner = some 0 ∧ (exchanged 1 false).phase 0 0 1 ≠ 1 ∧ held (exchanged 1 false) < 16 ∧
    held exchangeFull = 16 ∧ exchangeFull.phase 0 0 1 ≠ 1 ∧
    (exchanged 0 false).xstBehind (commandOf exchange) (.xst 1 0 0 0 128 5 false) = false ∧
    exchangeBehind.phase 0 0 1 = 0 ∧ exchangeBehind.xstBehind { commandOf exchange with order := 1 } (.xst 1 0 0 0 128 5 false) = true := by
  decide +kernel

/-- Group words of barrier 1 at cluster 0 of two members and of one. -/
def groupWord (n : Nat) : Word := .ofNat 64 (n + 1 * 2 ^ 16)

theorem wit_BarrierRounds :
    let x (s : State) (w : Word) := ((s.received 1).barrier (groupHome w) 0 (groupId w)).arrive (0, 0, 1) w true
    let s := withMsg two (.bar 0 0 0 (groupWord 2) true)
    let d := withMsg two (.barDone 0 0 1 1 [(0, 0, 1)])
    (x s (groupWord 2)).arrived.length < (x s (groupWord 2)).count ∧ (x s (groupWord 1)).count ≤ (x s (groupWord 1)).arrived.length ∧
    (d.berth 0 0).awaiting = some 1 ∧ ((d.received 1).messages.all fun e => !((d.received 1).xstWaits 0 0 1 e.2)) = true := by
  decide +kernel

/-- A contribution of a round of n. -/
def contribution (n : Nat) : CollJob :=
  { cluster := 0, ident := 1, n := n, rank := 0, comb := 0, kind := 0, root := 0, fmt := 0, destSpad := true, dest := 0x100, size := 8,
    bytes := 0x3F8000003F800000, mark := false }
/-- The state with the contribution as message 1. -/
def contributed (n : Nat) : State := { withMsg two (.coll 1) with commands := [(1, commandOf (.coll (contribution n)))] }
/-- The round of a contribution with those that wait. -/
def roundWith (n : Nat) : Bool :=
  let x : Contribution := { slot := 0, cmd := 1, job := contribution n }
  roundFull (roundOf (((contributed n).contributions ++ [x]).filter x.joins))

theorem wit_Collectives :
    (Map.get? (contributed 2).messages 1).isSome = true ∧ (contribution 2).receives = true ∧
    ({ contribution 2 with kind := 1, root := 1 } : CollJob).receives = false ∧ roundWith 2 = false ∧ roundWith 1 = true := by
  decide +kernel

/-! ## Witnesses: dry dock, errors, host and power -/

/-- Core 0 with a lease, pending or in test, taken at a score. -/
def docking (state score : Nat) : State := { two with leases := [⟨0, 0, state, score, 0, 0⟩] }
/-- The first core out of work, with a pending lease. -/
def dockingIdle : State :=
  { device.setCore 0 { device.core 0 with service := .leasePending } with leases := [⟨0, 0, 1, 100, 0, 0⟩] }
/-- A port with a lease. -/
def dockingUnit (state : Nat) : State := { two with leases := [⟨6, 5, state, 100, 0, 0⟩] }
/-- An event of the dock waits for the event ring. -/
def dockHeld : State := { two with raised := [⟨0x10, 0, 0, 0, 5, 6, none⟩] }

theorem wit_DryDock :
    two.waits [0x10, 0x12] = false ∧ unitExists 6 35 = true ∧ two.inService 6 35 = true ∧ two.leaseAllowed 6 35 = true ∧
    dockHeld.waits [0x10, 0x12] = true ∧ dockingIdle.leaseOf 0 0 = some ⟨0, 0, 1, 100, 0, 0⟩ ∧
    dockingIdle.freeOfWork ⟨0, 0, 1, 100, 0, 0⟩ = true ∧
    25000000 ≤ ({ docking 1 100 with now := 25000000 } : State).now - 0 ∧ (docking 1 100).coreScore 0 < 224 ∧
    (docking 1 100).leaseOf 0 0 = some ⟨0, 0, 1, 100, 0, 0⟩ ∧
    (docking 2 127).waits [0x10, 0x12] = false ∧ (docking 2 127).leaseOf 0 0 = some ⟨0, 0, 2, 127, 0, 0⟩ ∧
    (docking 2 128).leaseOf 0 0 = some ⟨0, 0, 2, 128, 0, 0⟩ ∧
    ([] : List PatternRun).all (fun r => !r.failsFirst) = true ∧ [(⟨1, false, true, 0, 0⟩ : PatternRun)].all (fun r => !r.failsFirst) = true ∧
    (dockingUnit 2).leaseOf 6 5 = some ⟨6, 5, 2, 100, 0, 0⟩ ∧ (dockingUnit 2).waits [0x10, 0x12] = false ∧ 2 < 6 ∧
    [(⟨0, true, false, 0, 0⟩ : PatternRun), ⟨1, true, true, 8, 9⟩].find? (fun r => r.failsFirst && r.failsSecond) = some ⟨1, true, true, 8, 9⟩ ∧
    [(⟨0, true, false, 0, 0⟩ : PatternRun)].all (fun r => !(r.failsFirst && r.failsSecond)) = true ∧
    [(⟨0, true, false, 0, 0⟩ : PatternRun)].any (fun r => r.failsFirst) = true := by
  decide +kernel

/-- A band of channel 5 is due. -/
def bandDue : State := { two with bandsDue := [(1, 5)] }

theorem wit_Retirements :
    two.waits [0x10, 0x12] = false ∧ unitExists 6 35 = true ∧ two.isRetired 6 35 = false ∧ unitExists 0 1535 = true ∧
    two.isRetired 0 1535 = false ∧ (bandDue.bandsDue.find? fun x => x.1 == 1) = some (1, 5) := by decide +kernel

/-- An access about to be performed, whose packet crosses a link; after eight resends. -/
def crossing : State := { accessed load4 with agenda := [.accessPerform 1] }

theorem wit_Errors :
    unitExists 5 1583 = true ∧ (∀ i ∈ (two.correctedError 3 0).agenda, (two.correctedError 3 0).rowOver 0 i = none) ∧
    ((List.range 192).any fun l => ((crossing.correctedError 3 l).rowOver l (.accessPerform 1)).map Prod.fst == some 1) = true ∧
    (two.berth 0 0).task.isSome = true ∧ load4.done = false ∧ load4.sc = false ∧ ({ load4 with resends := 7 } : Access).resends < 8 ∧
    ({ load4 with resends := 8 } : Access).resends = 8 := by decide +kernel

theorem wit_Scores : 1535 < 2 ^ 24 := by decide

/-- An event. -/
def event (code : Nat) : Event := ⟨code, 0, 0, 0, 5, 6, none⟩
/-- Events raised with room in the ring; with the ring full; and with 256 stamped events held. -/
def raisedOne : State := { two with launches := [], raised := [event 5], evqArmed := false }
/-- The ring is full. -/
def raisedFull : State := { two with raised := [event 5], ctrl := { two.ctrl with evqwr := 16 } }
/-- The ring is full and 256 events are held. -/
def raisedOver : State := { raisedFull with stamped := List.replicate 256 (1, event 1) }
/-- The completion message is armed and enabled. -/
def armed : State := { two with ctrl := { two.ctrl with evqirq := 1, evqwr := 3 } }

theorem wit_EventRing :
    5 ∉ [1, 2, 3, 4] ∧ raisedOne.ringFull = false ∧ raisedOne.stamped = [] ∧ raisedOne.evqArmed = false ∧ raisedFull.ringFull = true ∧
    raisedFull.stamped.length < 256 ∧ raisedOver.ringFull = true ∧ 256 ≤ raisedOver.stamped.length ∧ droppable (event 5).code = true ∧
    armed.ringOn = true ∧ armed.evqArmed = true ∧ armed.ctrl.evqirq.getLsbD 0 = true ∧ armed.ctrl.evqwr ≠ armed.ctrl.evqrd ∧
    two.stamped = [] ∧ two.raised = [] ∧ two.readyDue = false ∧ two.launches ≠ [] ∧ device.launches = [] ∧ device.raised = [] ∧
    State.reset.ringOn = false := by decide +kernel

/-- A berth that is to park on a page fault; the same parked with its fault posted; an engine command suspended by one. -/
def faulting : State :=
  two.onBerth 1 0 fun x => { x with park := some (.pageFault 1 true ⟨0x0A, 2, 0, 5⟩), regs := handles x.regs }
/-- Parked, with its fault posted. -/
def parked : State := { faulting.onBerth 1 0 (fun x => { x with status := .parked }) with faults := [⟨1, 1, 0, none, 0⟩] }
/-- An engine command suspended on a page fault. -/
def suspended : State :=
  { two with faults := [⟨1, 0, 0, some 1, 0⟩], commands := [(1, { commandOf (.copy ⟨true, 0, true, 0x100, 32, 0, false, []⟩) with suspended := true })] }

theorem wit_FaultAnswers :
    (faulting.berth 1 0).park = some (.pageFault 1 true ⟨0x0A, 2, 0, 5⟩) ∧ (faulting.berth 1 0).status ≠ .parked ∧
    (faulting.berth 1 0).status ≠ .free ∧ faulting.earlierDone 1 0 = true ∧ parked.faults = [⟨1, 1, 0, none, 0⟩] ∧
    (parked.berth 1 0).park = some (.pageFault 1 true ⟨0x0A, 2, 0, 5⟩) ∧ (parked.berth 1 0).partner = none ∧
    suspended.faults = [⟨1, 0, 0, some 1, 0⟩] ∧ ((Map.get? suspended.commands 1).map Command.suspended) = some true ∧
    quiet.revokeBusy = false ∧ (quiet.walk 0x50000).hasLeaf = true ∧ (quiet.walk 0x60000).hasLeaf = false ∧
    (0xBFFFFFFFFF : Nat) < 0xC000000000 ∧ quiet.mem.wf = true := by decide +kernel

/-- The window of the host to the home of a line is full. -/
def hostWindowFull : State :=
  let h := two.homeSlice 0x400000
  { two with windows := [(128 * portSource (attachedQuay h) + h, { Window.reset with out := 64 })] }

theorem wit_HostWindows :
    2 ^ 36 - 8 + 8 ≤ 2 ^ 36 ∧ two.target (two.ctrl.apbase.toNat + 8) ≠ .reserved ∧ two.target 0xC000000000 = .reserved ∧
    device.launches = [] ∧ two.launches ≠ [] ∧ 1 ≤ (168 : Word).toNat ∧ (168 : Word).toNat ≤ 168 ∧ 168 < (169 : Word).toNat ∧
    1000 ≤ (3400 : Word).toNat ∧ (3400 : Word).toNat ≤ 3400 ∧ 3400 < (3401 : Word).toNat ∧ (999 : Word).toNat < 1000 ∧ 1535 < 1536 ∧
    two.unreachable 0x400000 = false ∧ (two.hostLines 0x400000 8).all (fun i => !two.moving (256 * i)) = true ∧
    two.hostShut (two.hostLines 0x400000 8) = none ∧ two.target 0x400000 ≠ .reserved ∧ portless.unreachable (2 ^ 51 + 2 ^ 40) = true ∧
    portless.target (2 ^ 51 + 2 ^ 40) ≠ .reserved ∧ (homeless.hostLines 0x400000 8).any (fun i => homeless.moving (256 * i)) = true ∧
    hostWindowFull.hostShut (hostWindowFull.hostLines 0x400000 8) = some (two.homeSlice 0x400000) ∧
    hostWindowFull.moving 0x400000 = false := by decide +kernel

/-- No request fits every cap. -/
theorem wit_PowerAndBringUp_requests :
    ((List.range 24).map fun i => ([] : List Nat).getD i 0 / min 2 (two.island i).heat).sum ≤ two.ctrl.pcap.toNat - Config.ioShare :=
  have h : ((List.range 24).map fun i => ([] : List Nat).getD i 0 / min 2 (two.island i).heat).sum = 0 := by decide +kernel
  h ▸ Nat.zero_le _

theorem wit_PowerAndBringUp :
    two.heatWaits 3 = false ∧ ({ two with raised := [⟨0x16, 0xFF, 0x80, 0xFFFF, 3, 110, none⟩] } : State).heatWaits 3 = true ∧ 119 < 120 ∧ two.waits [0x10, 0x12, 0x17] = false ∧ State.reset.ctrl.ready = false ∧
    State.reset.ctrl.fwerr = false ∧ State.reset.waits [0x10, 0x12, 0x17] = false ∧ State.reset.ringOn = false ∧
    two.ctrl.ready = false ∧ two.ctrl.fwerr = false ∧ two.ringOn = true := by decide +kernel

/-! ## Witnesses: issue, segments and time -/

/-- The bundle of a word. -/
def bundleOf (w : Nat) : Bundle :=
  match (placed w).fetchBundle 0 0 with
  | .ok x => x
  | .error _ => ⟨Header.read 0, none, none, none, none, none, none⟩
/-- Whether the checks of the bundle at the PC of berth 0 of core 0 pass. -/
def passes (s : State) (x : Bundle) : Bool :=
  let u := s.openIssue 0 0 x.hdr
  match u.judge x (u.active x) with
  | .pass => true
  | _ => false
/-- An ADD, as an operation of slot 1. -/
def addOp : SlotOp := { slot := 1, instr := .add ⟨5, 1, 2, 0, 0⟩, sem := semAdd ⟨5, 1, 2, 0, 0⟩ }
/-- A berth within an open segment. -/
def inSegment : State := opened.onMe fun b => { b with entryNext := false }

theorem wit_BundleIssue :
    (State.reset.island 0).ticks State.reset.now = true ∧
    (Map.get? ((placed 0x000E6281).core 0).imem ((placed 0x000E6281).berth 0 0).regs.pc.toNat).isSome = true ∧
    Map.get? (State.reset.core 0).imem (State.reset.berth 0 0).regs.pc.toNat = none ∧
    (placed 0x000E6281).pick 0 (List.range 8) = some 0 ∧
    passes (placed 0x000E6281) (bundleOf 0x000E6281) = true ∧ passes (placed 0x000E6286) (bundleOf 0x000E6286) = false ∧
    inSegment.isEntry (bundleOf 0x000E6281) [addOp] = false ∧ inSegment.me.ckpt.isSome = true ∧ inSegment.popped = [] ∧
    inSegment.loops [addOp] = false ∧ Machine.Instr.syncs addOp.instr = false := by decide +kernel

/-- A checkpoint, and an error of the rollback class not yet released. -/
def checkpoint : Regs := { Regs.reset with pc := 3, g := vset Regs.reset.g 3 77, rewinds := 9 }
/-- An error of the rollback class not yet released. -/
def rollError : RollError := { trap := { code := 0x0D, slot := 2, timm := 0, info := 5 }, released := false }
/-- Berth 0 of core 0 in an open segment that is to close. -/
def segment : State :=
  world.onBerth 0 0 fun b => { b with status := .ready, ckpt := some checkpoint, closing := true, segIssued := 1, issued := 4 }
/-- The same with a result outstanding. -/
def segmentWaits : State := segment.onBerth 0 0 fun b => { b with outstanding := [⟨0, 3, 0⟩] }
/-- A sync word of target 12 at 0x40, with 7 bytes counted. -/
def syncAt : Memory := ((Memory.write [] 0x40 4 12).write 0x44 4 7).write 0x48 4 0xFFFFFFFF
/-- The same in scratchpad. -/
def synced : State := world.onSpad 0 fun _ => syncAt

/-- Two members of a redundant pair whose segments are to close, at different bundles; the second not ready. -/
def pairApart (ready : Bool) : State :=
  let x : Berth := { Berth.reset with
    status := .ready, red := true, ckpt := some checkpoint, closing := true, task := some { placedTask 5 with partner := some (1, 0) } }
  let y : Berth := { x with
    closing := ready, regs := { x.regs with pc := 3 }, task := some { placedTask 5 with partner := some (0, 0) } }
  (State.reset.setBerth 0 0 x).setBerth 1 0 y

theorem wit_SegmentCommit_pair :
    let s := pairApart true
    (s.berth 0 0).error = none ∧ (s.berth 0 0).ckpt.isSome = true ∧ (s.berth 0 0).partner = some (1, 0) ∧ (s.berth 0 0).matched = false ∧
    (s.berth 1 0).status ≠ .free ∧ s.commitReady 0 0 = true ∧ (pairApart false).commitReady 0 0 = true ∧
    (pairApart false).commitReady 1 0 = false ∧ s.commitReady 1 0 = true ∧ (s.berth 0 0).regs.pc ≠ (s.berth 1 0).regs.pc := by decide +kernel

theorem wit_SegmentCommit :
    7 < 8 ∧ (segment.berth 0 0).error = none ∧ (segment.berth 0 0).ckpt = some checkpoint ∧ segment.commitReady 0 0 = true ∧
    (segment.berth 0 0).partner = none ∧ (segment.berth 0 0).held = [] ∧ (segment.berth 0 0).subs = [] ∧ segment.writebacks = [] ∧
    (∀ n, n < 4 → ((segment.berth 0 0).regs.queue n).splice ≠ .fed) ∧ (segmentWaits.berth 0 0).error = none ∧
    (segmentWaits.berth 0 0).ckpt.isSome = true ∧ segmentWaits.commitReady 0 0 = false ∧ (synced.cluster 0).spad.wf = true ∧
    (synced.cluster 0).spad.read 0x40 4 = 12 ∧ (synced.cluster 0).spad.read 0x44 4 + 5 = 12 ∧
    (synced.cluster 0).spad.read 0x44 4 + 4 < 12 ∧ (synced.cluster 0).spad.read 0x80 4 = 0 := by decide +kernel

/-- The segment with an error; the same in its second execution, with a handler. -/
def rewinding : State := segment.onBerth 0 0 fun b => { b with error := some rollError }
/-- The second execution of the segment, with a handler. -/
def rewindingAgain : State :=
  let s := rewinding.onBerth 0 0 fun b => { b with regs := { b.regs with retry := true, entry := 9, rewinds := 255 } }
  s.setCore 0 { s.core 0 with tvec := 0x40 }

theorem wit_Rewind :
    let x := rewinding.berth 0 0
    let y := rewindingAgain.berth 0 0
    x.error = some rollError ∧ rollError.released = false ∧ x.ckpt = some checkpoint ∧ x.status = .ready ∧ x.failed = false ∧ x.held = [] ∧
    x.asked = [] ∧ rewinding.commands = [] ∧ (rewinding.core 0).half0 = [] ∧ (rewinding.core 0).half1 = [] ∧ rewinding.writebacks = [] ∧
    x.regs.retry = false ∧ y.error = some rollError ∧ y.ckpt = some checkpoint ∧ y.regs.retry = true ∧ y.sup = false ∧
    (rewindingAgain.core 0).tvec.setWidth 11 ≠ (0 : BitVec 11) := by decide +kernel

/-- A berth that has issued for some cycles under a bound. -/
def bounded (n m : Nat) : State :=
  world.onBerth 0 0 fun b => { b with regs := { b.regs with bound := .ofNat 32 n, count := .ofNat 32 m } }
/-- A berth stalled at a WAIT of limit n for m cycles. -/
def stalledAt (n m : Nat) : State := world.onBerth 0 0 fun b => { b with status := .stalled, waiting := some (2, n), waited := [(2, m)] }

theorem wit_TimeLimits :
    ((bounded 5 6).berth 0 0).regs.bound ≠ 0 ∧ ((bounded 5 6).berth 0 0).regs.bound < ((bounded 5 6).berth 0 0).regs.count ∧
    ((bounded 5 6).berth 0 0).sup = false ∧ ((bounded 5 5).berth 0 0).regs.count ≤ ((bounded 5 5).berth 0 0).regs.bound ∧
    ((bounded 0 9).berth 0 0).regs.bound = 0 ∧ ((stalledAt 4 4).berth 0 0).status = .stalled ∧
    ((stalledAt 4 4).berth 0 0).waiting = some (2, 4) ∧ 2 ∉ ((stalledAt 4 4).berth 0 0).timedOut ∧
    4 ≤ Map.getD ((stalledAt 4 4).berth 0 0).waited 2 0 ∧ Map.getD ((stalledAt 4 3).berth 0 0).waited 2 0 < 4 ∧
    (world.berth 0 0).status ≠ .stalled := by decide +kernel

/-! ## Witnesses: engines -/

/-- A descriptor of R170 over page 5: format, log2 rows and columns, and the extents and strides of its two dimensions. -/
def descOf (fmt r c e0 e1 s0 s1 : Nat) : Desc :=
  .ofNat 512 (fmt + 2 * 16 + (0x50000 / 16) * 2 ^ 8 + 2 ^ 64 * (r * 2 ^ 52 + c * 2 ^ 55) + 2 ^ 128 * (e0 - 1 + s0 * 2 ^ 20) +
    2 ^ 192 * (e1 - 1 + s1 * 2 ^ 20 + 2 ^ 59))
/-- A berth with four queues at 0x10000, 0x20000, 0x30000 and 0x40000, of which q0 and q1 hold entries, four descriptors, and staging
registers. -/
def engines (q : Nat → Queue) (z : List (Nat × Nat)) : State :=
  let s := onR base fun r => handles ((((r.putQ 0 (q 0)).putQ 1 (q 1)).putQ 2 (q 2)).putQ 3 (q 3))
  let d : Map Desc := [(1, descOf 0 0 5 8 32 32 1), (2, descOf 0 5 0 64 8 8 1), (3, descOf 0xE 0 5 8 32 32 1), (4, descOf 1 5 5 64 64 64 1)]
  let s := s.onMyCore fun k => { k with d := d, z := z.foldl (fun v e => vset v e.1 (.ofNat 64 e.2)) k.z }
  let s := { s with iss := { s.iss with z := s.myCore.z, d := s.myCore.d }, launches := [(0, placedLaunch 0)] }
  let c := [0x10000, 0x10080, 0x10100, 0x20000, 0x20080, 0x20100].foldl (fun (c : Cluster) a =>
    c.setBlock a { Block.reset with present := true }) { Cluster.reset with banks := ownBanks }
  { s with clusters := [(0, c)], mem := table, ctrl := { s.ctrl with xroot := 0x10000 } }
/-- Queues of four entries of 128 bytes. -/
def smallQueue (n : Nat) : Queue :=
  { Queue.zero with configured := true, cfg := .ofNat 64 (0x10000 * (n + 1) + 2 * 2 ^ 40 + 1 * 2 ^ 48), tail := if n < 2 then 3 else 0 }
/-- Queues of eight entries of 2,048 bytes. -/
def tileQueue (n : Nat) : Queue :=
  { Queue.zero with
    configured := true, cfg := .ofNat 64 (0x10000 * (n + 1) + 4 * 2 ^ 36 + 3 * 2 ^ 40 + 4 * 2 ^ 48), tail := if n < 2 then 1 else 0 }
/-- The staging registers of a command word of each kind: CPY at z0, CPYT at z6, LDQ and its like at z14 and z17, PREF at z20, ACCH at
z22, XST at z24, SUBS at z26, COLL at z28. -/
def staged : List (Nat × Nat) :=
  [(0, 0x1000 + 2 ^ 56), (1, 0x2000 + 2 ^ 56), (2, 1 + 3 * 8), (4, 8 + 8 * 2 ^ 32), (5, 4),
   (6, 0x1000 + 2 ^ 56), (7, 0x2000 + 2 ^ 56), (8, 2 + 3 * 8 + 1 * 2 ^ 8), (10, 16 + 8 * 2 ^ 32), (11, 2), (12, 8 + 16 * 2 ^ 32), (13, 2),
   (14, 1), (17, 2 + 2 * 2 ^ 8), (20, 0x50000), (21, 512), (22, 3), (23, 0x50000),
   (26, 1 + 2 * 2 ^ 8 + 4 * 2 ^ 16 + 1 * 2 ^ 36), (28, 0x80 + 2 ^ 8 + 2 * 2 ^ 16), (30, 0x3000 + 2 ^ 56)]
/-- The berth at the issue of an E-slot operation. -/
def eng : State := engines smallQueue staged
/-- The same with subscription 2 in place. -/
def subscribed : State := after (.subs ⟨26, 2, 0, 0, 0, 0, 0⟩) eng
/-- The same with a number of subscription 2 staged at z22. -/
def returning : State := { subscribed with iss := { subscribed.iss with z := vset subscribed.iss.z 22 2 } }
/-- Subscription 2 of an attempt that was rewound. -/
def repeated : State := subscribed.onMe fun b => { b with subs := b.subs.map fun e => (e.1, { e.2 with rewound := true }) }
/-- The berth with tile queues, and a command of a CPYM staged at z14. -/
def tiles : State := engines tileQueue (staged ++ [(14, 4), (17, 1 + 64 * 2 ^ 4 + 64 * 2 ^ 12 + 1 * 2 ^ 20 + 1 * 2 ^ 22)])
/-- The odd member of a redundant pair at the same place. -/
def oddOf (s : State) : State :=
  let s := s.onMe fun b => { b with red := true, lastE := some 77 }
  { s with cores := Map.set s.cores 1 s.myCore, iss := { s.iss with core := 1 } }

theorem wit_EngineCommands :
    eng.iss.berth < 8 ∧ runs (.cpy ⟨0, 0, 0, 0, 0, 0⟩) eng = true ∧ runs (.cpyt ⟨6, 0, 0, 0, 0, 0⟩) eng = true ∧
    runs (.ldq ⟨14, 2, 0, 0, 0, 0, 0⟩) eng = true ∧ runs (.stq ⟨14, 0, 0, 0, 0, 0, 0⟩) eng = true ∧
    runs (.gath ⟨17, 0, 0, 0, 0, 0, 0⟩) eng = true ∧ runs (.scat ⟨17, 0, 0, 0, 0, 0, 0⟩) eng = true ∧
    runs (.pref ⟨20, 0, 0⟩) eng = true ∧ runs (.pin ⟨20, 0, 0⟩) eng = true ∧ runs (.unpn ⟨20, 0, 0⟩) eng = true ∧
    runs (.acch ⟨22, 0, 0, 0⟩) eng = true ∧ runs (.flushr ⟨0, 0⟩) eng = true ∧ runs (.xst ⟨24, 0, 0, 0, 0⟩) eng = true ∧
    runs (.subs ⟨26, 2, 0, 0, 0, 0, 0⟩) eng = true ∧ runs (.coll ⟨28, 0, 0, 0, 0⟩) eng = true := by decide +kernel

theorem wit_EngineCommands_more :
    runs (.cpym ⟨14, 2, 0, 0, 0, 0, 0⟩) tiles = true ∧ runs (.rets ⟨22, 0, 0, 0, 0⟩) returning = true ∧
    (returning.me.sub? (returning.zBits 22 0 4)).isSome = true ∧ eng.subRepeats ⟨26, 2, 0, 0, 0, 0, 0⟩ = none ∧
    repeated.subRepeats ⟨26, 2, 0, 0, 0, 0, 0⟩ = some 2 ∧ runs (.subs ⟨26, 2, 0, 0, 0, 0, 0⟩) repeated = true ∧
    (oddOf eng).odd = true ∧ runs (.ldq ⟨14, 2, 0, 0, 0, 0, 0⟩) (oddOf eng) = true := by decide +kernel

/-- The odd member at a CPYM, with commands, the other member having issued n bundles. -/
def oddTiles (n : Nat) (l : Map Command) : State :=
  let s := oddOf (tiles.onMe fun b => { b with task := some { placedTask 5 with partner := some (0, 0) } })
  { s.onBerth 0 0 fun b => { b with issued := n } with commands := l }
/-- The append of that CPYM. -/
def appendOf (s : State) (q : Nat) : Nat × BitVec 16 × Nat := (q, (s.liveQ q).tail, (s.liveQ q).slotAddr (s.liveQ q).tail)

theorem wit_EngineCommands_odd :
    let s := oddTiles 0 [(9, { commandOf .flushr with op := 3, append := some (appendOf tiles 2) })]
    s.odd = true ∧ runs (.cpym ⟨14, 2, 0, 0, 0, 0, 0⟩) s = true ∧ s.twinCommand (appendOf s 2) = some 9 ∧
    (oddTiles 0 []).twinCommand (appendOf s 2) = none ∧ runs (.cpym ⟨14, 2, 0, 0, 0, 0, 0⟩) (oddTiles 0 []) = true ∧
    (oddTiles 0 []).twin.issued ≤ (oddTiles 0 []).me.issued ∧ (oddTiles 3 []).me.issued < (oddTiles 3 []).twin.issued ∧
    runs (.cpym ⟨14, 2, 0, 0, 0, 0, 0⟩) (oddTiles 3 []) = true ∧ ((oddTiles 3 []).myCluster.block (appendOf s 2).2.2).present = false := by
  decide +kernel

/-- The first command of a state. -/
def firstOf (s : State) : Command := (s.commands.head?.map Prod.snd).getD (s.newCommand 1 3 .flushr)
/-- The number of its first command. -/
def firstId (s : State) : Nat := (s.commands.head?.map Prod.fst).getD 0
/-- The commands of a state released. -/
def freed (s : State) (f : Command → Command) : State := { s with commands := s.commands.map fun e => (e.1, f { e.2 with held := false }) }
/-- A CPY and an ACCH under way, and a LDQ whose page is not mapped. -/
def copying : State := freed (after (.cpy ⟨0, 0, 0, 0, 0, 0⟩) eng) id
/-- An ACCH under way. -/
def accumulating : State := freed (after (.acch ⟨22, 0, 0, 0⟩) eng) id
/-- A PREF under way. -/
def prefetching : State := freed (after (.pref ⟨20, 0, 0⟩) eng) id
/-- A LDQ under way. -/
def loading : State := freed (after (.ldq ⟨14, 2, 0, 0, 0, 0, 0⟩) eng) id
/-- A state without its page table. -/
def unmapped (s : State) : State := { s with mem := [] }
/-- A state whose page 5 migrates. -/
def migratesIn (s : State) : State := { s with mem := s.mem.write (0x13000 + 8 * 5) 8 migLeaf }
/-- A state whose page 5 has another leaf. -/
def withLeaf (s : State) (leaf : Nat) : State := { s with mem := s.mem.write (0x13000 + 8 * 5) 8 leaf }
/-- Page 5 is of another package and no port is in service. -/
def otherPackage : State :=
  { withLeaf loading (1 + 2 + 8 + 16 + 32 + (2 ^ 35 + 2 ^ 24) * 2 ^ 16 + 5 * 2 ^ 52) with
    leases := (List.range 36).map fun q => ⟨6, q, 2, 0, 0, 0⟩ }
/-- A state whose first command has its granules checked. -/
def checkedRun (s : State) : State := freed s fun k => { k with checked := true }
/-- Which outcome the check of the next granules has. -/
def granulesOf (s : State) : Nat :=
  match s.granules (firstOf s) (s.run (firstOf s)) with
  | .ok .. => 0
  | .wait => 1
  | .stop _ => 2
  | .fault .. => 3
  | .lost .. => 4
/-- A command may be checked. -/
def checks (s : State) : Bool :=
  let k := firstOf s
  let l := s.run k
  !k.held && !k.suspended && !k.checked && !(k.sent && k.isAcch) && k.unread.isEmpty && !l.isEmpty && !s.mustFollow (firstId s) k l && s.fifoReady k l &&
    !s.slotHeld k

theorem wit_EngineProgress_check :
    checks copying = true ∧ granulesOf copying = 0 ∧ checks loading = true ∧ granulesOf loading = 0 ∧
    checks (unmapped loading) = true ∧ granulesOf (unmapped loading) = 3 ∧ (firstOf (unmapped loading)).op ≠ 8 ∧
    checks (unmapped prefetching) = true ∧ granulesOf (unmapped prefetching) = 3 ∧ (firstOf prefetching).op = 8 ∧
    checks (migratesIn loading) = true ∧ granulesOf (migratesIn loading) = 1 ∧
    checks (withLeaf loading (1 + 0x40 * 2 ^ 16)) = true ∧ granulesOf (withLeaf loading (1 + 0x40 * 2 ^ 16)) = 2 ∧
    checks otherPackage = true ∧ granulesOf otherPackage = 4 := by decide +kernel

/-- The targets of a command's next run. -/
def targets (s : State) : List Nat := s.runTargets (firstOf s) (s.run (firstOf s))

/-- An STQ under way, whose entry is to be read. -/
def storing : State := freed (after (.stq ⟨14, 0, 0, 0, 0, 0, 0⟩) eng) id
/-- A copy that was issued before it has still to write bytes of its entry. -/
def storesAfter : State :=
  { storing with commands := storing.commands.map (fun e => (e.1, { e.2 with order := 5 })) ++ [(900, { firstOf copying with
      order := 0, work := .copy { srcSpad := true, src := 0, dstSpad := true, dst := 0x10000, esz := 8, padv := 0, padu := false
                                  dims := [⟨16, 0, 0, 8, 8⟩] } })] }

theorem wit_EngineProgress_land :
    (firstOf (checkedRun copying)).checked = true ∧ (targets (checkedRun loading)).all (fun n => !(checkedRun loading).moving (256 * n)) = true ∧
    (checkedRun loading).closedSlice (firstOf loading).source (targets (checkedRun loading)) = none ∧
    (firstOf loading).isAcch = false ∧ (firstOf accumulating).isAcch = true ∧
    (checkedRun accumulating).closedSlice (firstOf accumulating).source (targets (checkedRun accumulating)) = none ∧
    ({ checkedRun accumulating with launches := [] } : State).launch (firstOf accumulating).slot = none ∧
    (checkedRun prefetching).closedSlice (firstOf prefetching).source (targets (checkedRun prefetching)) = none ∧
    (checkedRun loading).mustQueue (firstOf loading) ((checkedRun loading).run (firstOf loading)) = false ∧
    (firstOf storing).unread ≠ [] ∧ (firstOf storing).held = false ∧ storing.readsAfter (firstId storing) (firstOf storing) = false ∧
    storesAfter.readsAfter (firstId storing) (firstOf storesAfter) = true := by decide +kernel

/-- The home of the page in test, its lines not yet moved; its window full. -/
def homeInTest : State := { checkedRun loading with leases := ((targets (checkedRun loading)).take 1).map fun n => ⟨4, homeIndex n, 2, 0, 0, 0⟩ }
/-- The window of the command's source to a home of its run full. -/
def windowsFull : State :=
  { checkedRun loading with
    windows := ((targets (checkedRun loading)).take 1).map fun n =>
      (128 * (firstOf loading).source + loading.homeSlice (256 * n), { Window.reset with out := 64 }) }

/-- A request of the core is on its way to a home of the command's run. -/
def queuedBehind : State :=
  { checkedRun loading with
    messages := ((targets (checkedRun loading)).take 1).map fun n => (7, .bar 0 0 0 (.ofNat 64 (loading.homeSlice (256 * n) * 2 ^ 30)) false) }

theorem wit_EngineProgress_stays :
    (targets homeInTest).any (fun n => homeInTest.moving (256 * n)) = true ∧
    queuedBehind.mustQueue (firstOf queuedBehind) (queuedBehind.run (firstOf queuedBehind)) = true ∧
    (targets windowsFull).all (fun n => !windowsFull.moving (256 * n)) = true ∧
    (windowsFull.closedSlice (firstOf loading).source (targets windowsFull)).isSome = true ∧
    ({ firstOf copying with held := true } : Command).held = true ∧ copying.allPerformed (firstOf copying) = false ∧
    copying.allPerformed { firstOf copying with done := (copying.transfers (firstOf copying)).length } = true ∧
    copying.run { firstOf copying with done := (copying.transfers (firstOf copying)).length } = [] := by decide +kernel

/-- The queue of the subscription full. -/
def pushFull : State := subscribed.onQueue 0 0 2 fun q => { q with tail := 4 }
/-- A result on its way. -/
def result0 : Writeback :=
  { core := 0, berth := 0, queue := 2, counter := 0, addr := 0x30000, esize := 128, first := 0, count := 128, bytes := 0x0102030405,
    sideband := onesSideband, setsPresence := true, unit := 1, flags := 1, accRow := none }
/-- Results on their way: of a queue entry, of flags alone, of an accumulator row, and one held back. -/
def results : State :=
  { eng with writebacks := [(0, result0), (1, { result0 with esize := 0 }), (2, { result0 with esize := 0, accRow := some (1, 31) }),
      (3, { result0 with counter := 400 })] }

/-- Subscription 2 as SUBS leaves it. -/
def subStarts (s : State) : Bool :=
  match (s.berth 0 0).sub? 2 with
  | some x => !x.stopped && decide (x.begun < x.count) && decide (x.begun ≤ x.landed) && decide (x.queue < 4)
  | none => false

/-- The odd member of a pair with the subscription, of which the even member has n tiles: the landed tiles of the latter. -/
def pairedSub (n : Nat) : Option Nat :=
  let t : Task := { placedTask 5 with partner := some (0, 0) }
  let s := (oddOf subscribed).onBerth 1 0 fun b => { b with task := some t }
  let s := s.onBerth 0 0 fun b => { b with subs := b.subs.map fun e => (e.1, { e.2 with landed := n, begun := n }) }
  (s.berth 1 0).sub? 2 |>.bind fun x =>
    let r := s.reader 1 0
    ((s.berth r.1 r.2).sameSub x).map Sub.landed

theorem wit_PushesAndResults :
    subStarts subscribed = true ∧ subscribed.ending 0 0 = false ∧
    (((subscribed.berth 0 0).regs.queue 2).tail - subscribed.freedHead 0 0 2).toNat < ((subscribed.berth 0 0).regs.queue 2).cap ∧
    ((pushFull.berth 0 0).regs.queue 2).cap ≤ (((pushFull.berth 0 0).regs.queue 2).tail - pushFull.freedHead 0 0 2).toNat ∧
    ((oddOf subscribed).berth 1 0).red = true ∧ subStarts (oddOf subscribed) = true ∧
    (oddOf results).shadow 1 0 = true ∧ (subscribed.cluster 0).engineMay (subscribed.berth 0 0).slot 0x30000 128 = true ∧
    (({ subscribed with clusters := [] } : State).cluster 0).engineMay (subscribed.berth 0 0).slot 0x30000 128 = false ∧
    pairedSub 1 = some 1 ∧ pairedSub 0 = some 0 ∧ (subscribed.berth 0 0).sub? 7 = none ∧
    results.heldBack result0 = false ∧ result0.esize ≠ 0 ∧ result0.accRow = none ∧ results.shadow 0 0 = false ∧
    results.heldBack { result0 with esize := 0 } = false ∧ results.heldBack { result0 with counter := 400 } = true ∧
    31 < 32 ∧ 1 < 2 := by decide +kernel

/-! ## Witnesses: the M, U and V slots -/

/-- A descriptor of a format with 2^r rows and 2^c columns. -/
def shapeOf (fmt r c : Nat) : Desc := .ofNat 512 (fmt + 2 * 16 + 2 ^ 64 * (r * 2 ^ 52 + c * 2 ^ 55) + 2 ^ 192 * 2 ^ 59)
/-- A configured queue at (n + 1) · 64 KiB with entries of 128 · 2^lg bytes, descriptor d, and occ entries. -/
def queueOf (n lg d occ : Nat) : Queue :=
  { Queue.zero with
    configured := true, cfg := .ofNat 64 (0x10000 * n + 0x10000 + lg * 2 ^ 36 + 3 * 2 ^ 40 + d * 2 ^ 48), tail := .ofNat 16 occ }
/-- The descriptors of the tile shapes. -/
def shapes : Map Desc :=
  [(1, shapeOf 1 5 5), (2, shapeOf 0 5 5), (3, shapeOf 3 5 7), (4, shapeOf 3 7 5), (5, shapeOf 3 0 7), (6, shapeOf 0 0 5), (7, shapeOf 6 1 7),
   (8, shapeOf 1 0 6)]
/-- A berth with queues of tiles, their entries present and of zeros. -/
def matrices (l : List (Nat × Nat × Nat)) : State :=
  let s := onR base fun r => l.zipIdx.foldl (fun r x => r.putQ x.2 (queueOf x.2 x.1.1 x.1.2.1 x.1.2.2)) r
  let s := s.onMyCore fun k => { k with d := shapes, z := vset (vset k.z 16 (.ofNat 64 (16 + 2 ^ 16 * 72))) 4 0x2000000 }
  let s := { s with iss := { s.iss with z := s.myCore.z, d := s.myCore.d } }
  let c := (List.range 4).foldl (fun (c : Cluster) q => [0, 1, 2, 3, 16, 32].foldl (fun (c : Cluster) i =>
    c.setBlock (0x10000 + 0x10000 * q + 128 * i) { Block.reset with present := true, sideband := onesSideband + i }) c)
    { Cluster.reset with banks := ownBanks }
  { s with clusters := [(0, c)] }
/-- Tiles of 8-bit floating numbers, and of 4-bit ones with groups of 16. -/
def bytes8 : State := matrices [(4, 1, 2), (4, 1, 3), (4, 1, 0), (5, 2, 1)]
/-- Tiles for MMAS. -/
def nibbles4 : State := matrices [(5, 3, 2), (5, 4, 1), (5, 4, 0), (5, 2, 1)]
/-- Rows for the pack unit. -/
def packs : State := matrices [(0, 5, 4), (0, 6, 4), (0, 5, 0), (0, 6, 0)]
/-- Rows of bytes for UNPK of the second queue's format. -/
def packs8 : State := matrices [(0, 7, 4), (0, 8, 4), (0, 7, 0), (0, 8, 0)]
/-- An entry of values for SPMX, into a queue of larger entries. -/
def sparse : State := matrices [(0, 5, 4), (0, 6, 4), (5, 3, 0), (0, 6, 0)]


theorem wit_MatrixIssue :
    bytes8.iss.berth < 8 ∧ runs (.mma ⟨0, 0x40, 1, 1, 0, 0⟩) bytes8 = true ∧ runs (.mmag ⟨0, 0x40, 1, 1, 0, 0⟩) bytes8 = true ∧
    runs (.accr ⟨0, 1, 2, 0, 0, 0⟩) bytes8 = true ∧ runs (.accw ⟨0xC0, 0, 1, 0, 0⟩) bytes8 = true ∧ runs (.accz ⟨1, 0, 0⟩) bytes8 = true ∧
    runs (.mtrn ⟨0, 1, 2, 0, 0⟩) bytes8 = true := by decide +kernel

theorem wit_MatrixIssue_groups : runs (.mmas ⟨0, 0x40, 1, 1, 0, 0⟩) nibbles4 = true := by decide +kernel

/-- The operation at the head of half-array 0. -/
def head0 (s : State) : Option MatrixOp := (s.myCore.halfQ 0).head?
/-- The same product waiting for bytes of a CPYM. -/
def bound : State :=
  (after (.mma ⟨0, 0x40, 1, 1, 0, 0⟩) bytes8).onMyCore fun k => { k with half0 := k.half0.map fun o => { o with addrB := some 5 } }

theorem wit_MatrixPromotion :
    (bytes8.core 0).halfQ 0 = [] ∧ ((head0 bound).map fun o => o.addrB.isSome) = some true ∧
    ((head0 (after (.mma ⟨0, 0x40, 1, 1, 0, 0⟩) bytes8)).map fun o => o.addrA == none && o.addrB == none && decide (o.kind ≤ 2)) = some true ∧
    ((head0 (after (.accz ⟨1, 0, 0⟩) bytes8)).map fun o => o.addrA == none && o.addrB == none && o.kind == 5) = some true ∧
    ((head0 (after (.accw ⟨0xC0, 0, 1, 0, 0⟩) bytes8)).map fun o =>
      o.addrA == none && o.addrB == none && o.kind == 4 && decide (o.first + o.rows ≤ 32)) = some true := by decide +kernel

theorem wit_PackUnit :
    packs.iss.berth < 8 ∧ runs (.unpk ⟨0, 3, 0, 0, 0, 0, 0, 0⟩) packs = true ∧ runs (.pack ⟨0, 2, 0, 1, 0, 0, 0, 0⟩) packs = true ∧
    runs (.pscl ⟨32, 2, 0, 0, 0, 0⟩) packs = true ∧ runs (.spmx ⟨0, 2, 0, 0, 0, 0⟩) packs = true ∧
    runs (.spex ⟨0, 2, 0, 0, 0, 0⟩) packs = true ∧ (0 : BitVec 3) ≠ 3 ∧ (0 : BitVec 3) ≠ 6 := by decide +kernel

theorem wit_PackUnit_more :
    runs (.pack ⟨0, 2, 3, 1, 0, 0, 0, 0⟩) packs8 = true ∧ runs (.unpk ⟨0, 3, 3, 1, 0, 1, 0, 0⟩) packs8 = true ∧
    runs (.spmx ⟨0, 2, 0, 3, 0, 0⟩) sparse = true := by decide +kernel

/-- A berth with four queues of entries of 128 bytes, of which q0 and q1 hold three. -/
def vectors : State :=
  let q (n occ : Nat) : Queue := { Queue.zero with configured := true, cfg := .ofNat 64 (0x4000 * n + 0x4000 + 2 * 2 ^ 40), tail := .ofNat 16 occ }
  let s := onR base fun r => (((r.putQ 0 (q 0 3)).putQ 1 (q 1 3)).putQ 2 (q 2 0)).putQ 3 (q 3 0)
  let c := (List.range 6).foldl (fun (c : Cluster) i =>
    c.setBlock ((if i < 3 then 0x4000 else 0x8000) + 128 * (i % 3)) { Block.reset with present := true }) { Cluster.reset with banks := ownBanks }
  { s with clusters := [(0, c)] }
/-- A V slot with an operation in a stage, of a type, and a destination. -/
def vSlot (st : VStage) (op ty dst : Nat) : VSlot :=
  let o (t : VStage) : BitVec 6 := if st = t then .ofNat 6 op else if (op = 4 ∨ op = 5) ∧ t.num + 1 = st.num then 3 else 0
  ⟨o .va, o .vb, o .vc, 0x00, 0x20, 0x21, 0x22, .ofNat 3 dst, .ofNat 2 ty, 0, 0, 0⟩
/-- An operation of the V slot runs in a stage. -/
def vRuns (st : VStage) (op ty dst : Nat) : Bool := ((vStageOp st (vSlot st op ty dst)).map fun i => runs i vectors).getD false

theorem wit_StageEffect :
    vectors.iss.berth < 8 ∧ (vSlot .va 1 0 3).usesAcc = false ∧ (VStage.va ≠ .vc) ∧ (vSlot .vc 1 0 3).dst.toNat < 4 ∧ (vSlot .vc 1 0 4).dst = 4 := by
  decide +kernel

theorem wit_IntegerStages :
    ([0x18, 0x19, 0x1A, 0x1B, 0x1C, 0x1D, 0x1E, 0x1F, 0x20, 0x21, 0x22, 0x23, 0x24, 0x25, 0x26, 0x27].all fun op => vRuns .vc op 3 2) = true := by
  decide +kernel

theorem wit_FloatStages :
    ([1, 2, 3, 4, 5, 6, 7, 8, 9, 0xA, 0xB, 0xC, 0xD, 0xE, 0xF, 0x10, 0x11, 0x12, 0x14].all fun op => vRuns .vc op 0 3) = true ∧
    vRuns .vb 0x13 3 4 = true := by decide +kernel

theorem wit_LaneStages :
    ([0, 0x30, 0x31, 0x32, 0x33, 0x34, 0x35, 0x36].all fun op => vRuns .va op 0 4) = true ∧ vRuns .vc 0x30 3 4 = true := by decide +kernel

theorem wit_SlotFrame :
    ∃ o, Machine.Instr.sem (.flushr ⟨0, 0⟩) = some o ∧ (Instr.flushr ⟨0, 0⟩).slotKind = some .engine ∧ SlotKind.engine ≠ .scalar ∧
      o.runs (.flushr ⟨0, 0⟩) eng = true := ⟨_, rfl, by decide +kernel⟩

theorem wit_Completion :
    checks loading = true ∧ granulesOf loading = 0 ∧ (firstOf (checkedRun loading)).checked = true ∧
    copying.allPerformed { firstOf copying with done := (copying.transfers (firstOf copying)).length } = true ∧
    subStarts subscribed = true ∧ results.heldBack result0 = false ∧
    ((head0 (after (.mma ⟨0, 0x40, 1, 1, 0, 0⟩) bytes8)).map fun o => o.addrA == none && o.addrB == none) = some true := by
  decide +kernel

theorem wit_ResetValues : 7 < 8 ∧ 31 < 32 ∧ 0x130 % 8 = 0 ∧ 0x130 ∉ [0x000, 0x128, 0x170, 0x178, 0x180] ∧ 11 < 12 ∧ 15 < 16 := by decide

/-! ## Results: the worked examples of the spec -/

/-- Register r after the scalar operation of a word in a berth with registers. -/
def resultOf (w : Nat) (l : List (Nat × Nat)) (r : Nat) : Nat :=
  match decodeSlot .scalar w with
  | some [i] => (vget (after i (setG base l)).me.regs.g r 0).toNat
  | _ => 0

/-- The example of R415: shifts by 4, and by 68, which is by 4. -/
theorem test_shifts :
    resultOf 0x004062A6 [(6, 0xFFFFFFFFFFFFFF00)] 5 = 0xFFFFFFFFFFFFFFF0 ∧
    resultOf 0x004062A5 [(6, 0xFFFFFFFFFFFFFF00)] 5 = 0x0FFFFFFFFFFFFFF0 ∧
    resultOf 0x000E628E [(6, 0xFFFFFFFFFFFFFF00), (7, 68)] 5 = 0xFFFFFFFFFFFFF000 := by decide +kernel

/-- The example of BFX and BFI (13_ref_a_c.md): lsb 8, width 12. -/
theorem test_bit_fields :
    resultOf 0x000E6299 [(6, 0xABCD00), (7, 0x0C08)] 5 = 0xBCD ∧
    resultOf 0x040E6299 [(6, 0xABCD00), (7, 0x0C08)] 5 = 0xFFFFFFFFFFFFFBCD ∧
    resultOf 0x000E629A [(6, 0xABCD00), (7, 0x0C08), (5, 0)] 5 = 0xD0000 := by decide +kernel

/-- The example of DIV and DIVN (14_ref_d_l.md): −7 by 2. -/
theorem test_division :
    resultOf 0x000E6286 [(6, 2 ^ 64 - 7), (7, 2)] 5 = 2 ^ 64 - 3 ∧
    resultOf 0x000E6287 [(6, 2 ^ 64 - 7), (7, 2)] 5 = 0x7FFFFFFFFFFFFFFC ∧
    resultOf 0x000E6286 [(6, 2 ^ 63), (7, 2 ^ 64 - 1)] 5 = 2 ^ 63 := by decide +kernel

/-- The example of MULH and MULHN (15_ref_m_r.md): −1 by 2. -/
theorem test_high_products :
    resultOf 0x000E6284 [(6, 2 ^ 64 - 1), (7, 2)] 5 = 2 ^ 64 - 1 ∧
    resultOf 0x000E6285 [(6, 2 ^ 64 - 1), (7, 2)] 5 = 1 := by decide +kernel

/-- The example of R393: MOVI 0x6789A, then MOVH20 0x12345. -/
theorem test_constants :
    resultOf 0xFFFFF2A9 [] 5 = 2 ^ 64 - 1 ∧ resultOf 0x123452AA [(5, 0x6789A)] 5 = 0x123456789A := by decide +kernel

/-- The examples of R216 and R217: homes of two lines, and the first while slice 28 is in dry dock. -/
theorem test_homes :
    homeIndex 0x123456 = 28 ∧ homeIndex 0x123457 = 61 ∧
    ({ State.reset with leases := [⟨4, 28, 2, 0, 0, 0⟩] } : State).servingSlice 28 = 29 := by decide +kernel

/-- The example of R29 about core 777: cluster, die, island, stack and attachment. -/
theorem test_core_777 :
    clusterOf 777 = 48 ∧ dieOf 48 = 2 ∧ islandOf 48 = 12 ∧ stackOfQuay 48 = 6 ∧ attachedQuay 48 = 53 := by decide +kernel

/-- The example of R224: the quays that the request from quay 48 to quay 28, and its reply, go through. -/
theorem test_routes :
    (State.reset.route 48 28).map (fun o => nextQuay o.1 o.2) = [49, 50, 51, 52, 40, 28] ∧
    (State.reset.route 28 48).map (fun o => nextQuay o.1 o.2) = [27, 26, 25, 24, 36, 48] := by decide +kernel

/-- The example of CVT (13_ref_a_c.md): f32 to f16 by rn, with the flags SAT and INEXACT. -/
theorem test_cvt_f16 :
    (laneCvt f32 f16 .rn 0x3F801000).1 = 0x3C00 ∧ (laneCvt f32 f16 .rn 0x3F803000).1 = 0x3C02 ∧
    (laneCvt f32 f16 .rn 0x4788B800).1 = 0x7BFF ∧ (laneCvt f32 f16 .rn 0x7FA00001).1 = 0x7E00 ∧
    ((laneCvt f32 f16 .rn 0x3F801000).2 == 0) = false := by decide +kernel

/-- The example of the fused stage (14_ref_d_l.md): (1 + 2^−12)² − 1 is 2^−11 + 2^−24 without a flag. -/
theorem test_fused : laneAddf f32 .rn 0x3F800800 0x3F800800 0xBF800000 = (0x3A000400, 0) := by decide +kernel

/-- The example of R139, its addend 1.5 twice, and a lane that saturates (R138). -/
theorem test_saturation : addA64 (0x180000000) (0x180000000) = (0x300000000, 0) ∧
    (addA64 (2 ^ 63 - 1) 1).2 = 1 := by decide +kernel

/-- R112: the count of a sync word reaches its target, and passes it. -/
theorem test_sync_word :
    (countSync (Memory.write [] 0 4 128) 0 128).read 0 16 = 128 + 2 ^ 64 ∧
    (countSync (Memory.write [] 0 4 64) 0 128).read 0 16 = 64 + 2 ^ 64 + 2 ^ 96 := by decide +kernel

/-- R59 and R227: a waiting task gains a level each 1,024 cycles; a marked reply halves a window. -/
theorem test_counts :
    agedPrio 1 1023 = 1 ∧ agedPrio 1 1024 = 2 ∧ agedPrio 1 9999 = 3 ∧
    ({ Window.reset with out := 3 }.reply true 0 5).w = 16 := by decide +kernel

/-! ## Witnesses: what a bundle meets at issue -/

/-- A bundle of one operation in S0. -/
def bundleWith (i : Instr) : Nat := 2 ^ 13 + ((encode i).getD 0) * 2 ^ 32
/-- Berth 0 of core 0 READY at a bundle of its launch. -/
def deciding (s : State) (w : Nat) : State :=
  (s.setCore 0 { s.core 0 with imem := [((s.berth 0 0).regs.pc.toNat, ⟨w, some (s.berth 0 0).slot⟩)] }).onBerth 0 0 fun b =>
    { b with status := .ready, sinceIssue := 40 }
/-- The kind of a verdict. -/
def kindOf (v : Verdict) : Nat := match v with
  | .pass => 0 | .trap _ => 1 | .wait => 2 | .park .. => 3 | .poison _ => 4 | .line .. => 5 | .ask .. => 6
/-- The kind of the first check that holds the bundle of an operation, and whether the berth meets the conditions of Decision. -/
def decides (s : State) (i : Instr) (kind : Nat) : Bool :=
  let s := deciding s (bundleWith i)
  let x := s.berth 0 0
  x.error.isNone && !x.closing && x.deferred.isNone && x.awaiting.isNone && x.revoking.isNone && (x.task.bind Task.partner).isNone &&
    x.park.isNone && x.rewinders.isEmpty && x.status == .ready && !x.pboundDue && match s.fetchBundle 0 0 with
    | .error _ => false
    | .ok y => let u := s.openIssue 0 0 y.hdr
      decide (y.hdr.stall < x.sinceIssue) && (!(u.isEntry y (u.active y)) || x.ckpt.isNone) && x.outstanding.isEmpty &&
        kindOf (u.judge y (u.active y)) == kind
/-- World with bank 1 still to come from another launch, and with no empty buffer in ring 3. -/
def bankComes : State := world.onMyCluster fun k => k.onBank 1 fun b => { b with owner := some 5, pending := [0] }
/-- World with no empty buffer in ring 3. -/
def ringFilled : State := world.onMyCluster fun k => { k with rings := [(3, { ring4 with states := [.full, .full, .full, .full] })] }
/-- World stopped at its bound; at a segment entry with a segment open, and with a result outstanding. -/
def atBound : State := world.onBerth 0 0 fun b => { b with pboundDue := true }

theorem wit_Decision :
    decides world (.add ⟨5, 1, 2, 0, 0⟩) 0 = true ∧ decides world (.div ⟨5, 7, 1, 0, 0⟩) 1 = true ∧ decides bankComes (.bacq ⟨13⟩) 2 = true ∧
    decides world (.ld ⟨6, 5, 1, 3, 0, 0, 0⟩) 3 = true ∧ decides world (.ld ⟨6, 8, 1, 3, 0, 0, 0⟩) 4 = true ∧
    decides ringFilled (.acqb ⟨5, 3, 0⟩) 5 = true ∧ decides world (.enq ⟨3, 1, 2⟩) 6 = true := by decide +kernel

/-- A berth whose q0 is one entry short of an operation's source, and whose q1 a splice or no one feeds. -/
def short (s : State) (n : Nat) (f : Queue → Queue) : State := onR s fun r => r.putQ n (f (r.queue n))

/-- INFO of the trap of an illegal V stage: PASS in VA and an opcode that is none in VB. -/
theorem test_illegal_stage :
    (match decodeBundle (2 ^ 15 + 0x15 * 2 ^ 6 * 2 ^ 96) with
      | .error (.opcode n op st) => n == 3 && op + st * 2 ^ 8 == 0x115
      | _ => false) = true := by decide +kernel

/-- Whether decoding a bundle fails, and how: 1 a header bit, 2 an empty slot, 3 an operation. -/
def faultOf (w : Nat) : Nat := match decodeBundle w with
  | .error .header => 1 | .error (.emptySlot _) => 2 | .error (.opcode ..) => 3 | .ok _ => 0

theorem wit_BundleFaults :
    faultOf (2 ^ 23) = 1 ∧ faultOf (2 ^ 64) = 2 ∧ faultOf (2 ^ 18 + 0x7F * 2 ^ 224) = 3 ∧ faultOf (2 ^ 13 + 2 ^ 32 * 0x7F) = 3 ∧
    faultOf (2 ^ 13) = 0 ∧
    (Map.get? ((deciding world 0).core 0).imem ((deciding world 0).berth 0 0).regs.pc.toNat).map ImemCell.owner =
      some (some ((deciding world 0).berth 0 0).slot) ∧
    (let s := (deciding world 0).setCore 0 { (deciding world 0).core 0 with imem := [(((deciding world 0).berth 0 0).regs.pc.toNat, ⟨0, some 6⟩)] }
     (Map.get? (s.core 0).imem (s.berth 0 0).regs.pc.toNat).map ImemCell.owner ≠ some (some (s.berth 0 0).slot)) := by decide +kernel

/-- Whether an entry lies beyond its queue's occupancy and no one is to append it. -/
def beyondAt (s : State) (e : Machine.Entry) : Bool :=
  (s.srcQ e.queue).readable && decide ((s.srcQ e.queue).occ ≤ e.offset) && (s.srcQ e.queue).splice != .fed && !s.pushesRemain e.queue

theorem wit_QueueChecks :
    beyondAt bytes8 (entry8 9) = true ∧ bytes8.predIs 0 0 = true ∧ beyondAt packs (entry7 7) = true ∧ packs.predIs 0 0 = true ∧
    (UP.wf ⟨7, 3, 0, 0, 0, 0, 0, 0⟩) = true ∧ (packs.srcQ 0).esize = 128 ∧
    (Instr.fadd .va { vSlot .va 1 0 3 with srcA := 9 }).wellFormed = true ∧ stageOperands { vSlot .va 1 0 3 with srcA := 9 } .va = [9, 32] ∧
    vectors.predIs 0 0 = true ∧ beyondAt vectors ⟨0, 9⟩ = true ∧ (vectors.srcQ 0).esize = 128 ∧
    ((short world 0 fun q => { q with splice := .spliced }).srcQ 0).readable = false ∧
    (short world 0 fun q => { q with splice := .fed }).distance ⟨0, 0⟩ = .wait ∧
    ({ loops 1 with iss := { (loops 1).iss with hdr := Header.read (2 ^ 12) } } : State).loops [] = true ∧ world.loops [] = false := by
  decide +kernel

/-- The segment with an error, STS, ENQ and a command held, and a result on its way; a handler that rewinds. -/
def rewindingHeld : State :=
  let s := rewinding.onBerth 0 0 fun b => { b with held := [.sts 0x40 4 7, .enq 44 0 2 [0, 1, 2, 3], .command 5], outstanding := [⟨0, 5, 9⟩] }
  { s with
    commands := [(5, commandOf .flushr), (6, commandOf exchange)]
    reservations := [(44, { cluster := 0, tq := 2, units := 1, launch := 0, ring := none })]
    writebacks := [(8, { s.flagsOnly 0x11 with core := 0, berth := 0 }), (9, { s.flagsOnly 0x22 with core := 1, berth := 0 })] }
/-- The same in a handler, and with an LDQ under way. -/
def rewindingBusy : State :=
  { rewindingHeld with commands := [(6, { commandOf exchange with op := 4, task := ((rewindingHeld.berth 0 0).task.map Task.uid).getD 0 })] }

theorem wit_Rewind_held :
    let x := rewindingHeld.berth 0 0
    x.error = some rollError ∧ x.ckpt = some checkpoint ∧ x.status = .ready ∧ x.failed = false ∧ x.asked = [] ∧ x.held.length = 3 ∧
    (rewindingHeld.commands.all fun p => !(rewindingHeld.owns 0 0 p.2 && p.2.push.isNone && [3, 4, 6].contains p.2.op)) = true ∧
    ((rewindingHeld.core 0).half0 ++ (rewindingHeld.core 0).half1) = [] ∧ x.regs.retry = false ∧ rewindingHeld.shadow 0 0 = false ∧
    (rewindingHeld.core 0).tvec.setWidth 11 = (0 : BitVec 11) := by decide +kernel

theorem test_rewind_discards :
    let t := rewindingHeld.rewind 0 0
    (t.berth 0 0).held = [] ∧ t.commands.map Prod.fst = [6] ∧ t.reservations.length = 0 ∧ t.writebacks.map Prod.fst = [9] ∧
    (t.berth 0 0).regs.flags = 0x11 ∧ (t.cluster 0).spad.read 0x40 8 = 0x8182838485868788 := by decide +kernel


/-! ## Witnesses: banks, numbers, the pack unit and the matrix engine -/

theorem wit_Banks_waits :
    let l := (List.range 32).filter fun n => (bankComes.srcG 13).getLsbD n
    bankComes.odd = false ∧ (l.all fun n => (bankComes.myCluster.bank n).pending.contains bankComes.mySlot) = true ∧
    (l.any fun n => (bankComes.myCluster.bank n).owner != some bankComes.mySlot) = true ∧
    (world.srcG 7).getLsbD 31 = true ∧ ((world.myCluster.bank 31).owner != some world.mySlot) = true ∧
    (world.myCluster.bank 31).pending.contains world.mySlot = false := by decide +kernel

/-- The values of f32 words: a number, a signalling NaN, an infinity, zeros. -/
theorem wit_FloatArithmetic :
    (f32.value 0x40400000).finite = true ∧ (f32.value 0x40400000).rat = 3 ∧ (f32.value 0xC0400000).rat = -3 ∧
    (f32.value 0x7F800001).isSignalling = true ∧ (f32.value 0xFF800000).infinite = true ∧ (f32.value 0x80000000).rat = 0 ∧
    f32.roundRat .rn 3 = 3 ∧ |f32.roundRat .rn 3| ≤ f32.top := by decide +kernel

theorem wit_FloatConversions :
    f8e4 ∈ [f32, bf16, f16, f8e4, f8e5, f6, f4] ∧ (f32.value 0x43EB0000).rat = 470 ∧ f8e4.top < |f8e4.roundRat .rn 470| ∧
    roundUnits .rn 1 (5 / 2) = 2 ∧ roundUnits .rn 1 (-5 / 2) ≠ (-5 / 2 : ℚ) := by decide +kernel

/-- A PACK of 470 to f8e4 saturates, one of 464 gives 448; 2.5 to f4 gives 2 (R126). -/
theorem test_pack_saturates :
    f8e4.convert .rn (f32.value 0x43EB0000) = (0x7E, flagSat ||| flagInexact) ∧ f8e4.convert .rn (f32.value 0x43E80000) = (0x7E, flagInexact) ∧
    f4.convert .rn (f32.value 0x40200000) = (4, flagInexact) := by decide +kernel

theorem wit_FloatComparisons :
    (f32.value 0xC0400000).rat < (f32.value 0x40400000).rat ∧ (f32.value 0x80000000).neg = true ∧ (f32.value 0x7FC00000).isNan = true ∧
    (f32.value 0x7FC00000).isSignalling = false ∧ 7 < 8 := by decide +kernel

theorem wit_Seeds :
    (f32.value 0x40400000).finite = true ∧ 0 < (f32.value 0x40400000).rat ∧ (f32.value 0xC0400000).rat < 0 ∧
    (2 : ℚ) ^ 128 ≤ |roundUnits .rn (2 ^ (117 : Int)) (1 / (f32.value 0x00200000).rat)| ∧
    |roundUnits .rn (2 ^ (-13 : Int)) (1 / (f32.value 0x40400000).rat)| < (2 : ℚ) ^ 128 ∧ 128 ≤ (f32.value 0x43000000).rat ∧
    (f32.value 0xC3170000).rat < -150 ∧ (f32.value 0xC3150000).rat = ((-149 : Int) : ℚ) ∧ (f32.value 1).rat = 2 ^ (-149 : Int) := by decide +kernel

/-- A state with a line of a64 lanes, all the greatest. -/
def fullLine : State := { State.reset with mem := Memory.write [] 0x1000 8 (2 ^ 63 - 1) }

theorem wit_AddendResults :
    fullLine.mem.wf = true ∧ clampA64 ((fullLine.mem.read 0x1000 8 : Int).bmod (2 ^ 64) + 1) ≠ (fullLine.mem.read 0x1000 8 : Int).bmod (2 ^ 64) + 1 ∧
    clampA64 5 = 5 ∧ (f32.value 0x7FC00000).finite = false ∧ roundUnits .rn 1 (3 * 2 ^ (-1 : Int)) = 2 ∧
    (2 : ℚ) ^ 63 - 1 < roundUnits .rn 1 (2 ^ (70 : Int)) := by decide +kernel

theorem wit_PackResults :
    (0 : BitVec 3) ≠ 7 ∧ (0 : BitVec 2) ≠ 3 ∧ packs.iss.berth < 8 ∧ (packs.liveQ 2).splice ≠ .spliced ∧ packs.spmxTall 2 = false ∧
    sparse.spmxTall 2 = true ∧ (sparse.liveQ 2).splice ≠ .spliced ∧ (f32.value 0x40400000).rat ≠ 0 ∧ (f32.value 0).isZero = true ∧
    (f32.value 0xFF800000).infinite = true := by decide +kernel

/-- A product of f8e4 whose first A element is a number, a NaN or an infinity, and one of a compressed row. -/
def product (a kind : Nat) : MatrixOp :=
  { kind := kind, berth := 0, slot := 4, fmtA := 4, fmtB := 4, zero := true, res := false, a := a, scaleA := onesSideband, addrA := none,
    addrB := none, groups := [(32, 0x3C, onesSideband)], first := 0, rows := 0, mode := 0, dest := none, after := none, bundle := 0 }

theorem wit_MatrixElement :
    ((product 0x3C 0).elemA 0 0).1 = some (.num false 4 (-2)) ∧ ((product 0x7D 0).elemA 0 0).1 = some (.nan false true) ∧
    ((product 0x7C 0).elemA 0 0).1 = some (.inf false) ∧ ((product 0x7CFC 0).elemA 0 0).1 = some (.inf true) ∧
    (product (1 + 2 ^ 128 * 0x3C) 1).elemA 0 0 = (some (.num false 4 (-2)), false) ∧ (product 0 1).elemA 0 0 = (none, false) ∧
    (product 511 1).elemA 0 8 = (none, true) ∧ (entryElem 4 0x3C 0).rat = 1 ∧ (entryElem 4 0x3C 1).isZero = true ∧
    groupOf (product 0 0).groups 31 = some (0x3C, onesSideband) ∧ groupOf [] 31 = none ∧ Int.log 2 |(1 : ℚ)| = 0 := by decide +kernel

/-- 1 times 1, in f8e5. -/
theorem test_product_of_ones : (product 0x3C 0).element 0 0 0 0 = (0x3F800000, 0, false) := by decide +kernel

theorem wit_CanonicalForm : State.reset.canonical := ⟨rfl, fun _ => rfl, rfl⟩

theorem wit_CanonicalForm_step :
    (match step (placed 0x000E6281) with
      | .next _ => true
      | _ => false) = true := by decide +kernel

end Sys2Proof.Tests
end

/-! COP (R339): its three cases, with the rules for an operation of a slot that is illegal or has nothing to check. -/

namespace Sys2Proof.Machine

/-! ### An operation of a slot that is illegal, or that has nothing to check -/

/-- An illegal operation traps, whatever else its meaning asks for (R264, R289). -/
theorem runSlot_of_illegal (o : OpSem) {i : Instr} (s : State) (hw : i.wellFormed = false) :
    runSlot i o s = .next ((s.inSlot i.slotKind).takeTrap ((s.inSlot i.slotKind).illegal i)) := by
  simp [runSlot, hw]

/-- A legal plain operation runs wherever its predicate is true. -/
theorem plain_runs {pred : State → Bool} (reads : List RegName) (writes : List (RegName × Option Nat))
    (effect : State → State) {i : Instr} {s : State} (hw : i.wellFormed = true)
    (hp : pred (s.inSlot i.slotKind) = true) : (OpSem.plain pred reads writes effect).runs i s = true := by
  simp [OpSem.runs, OpSem.plain, allChecks, hw, hp]

/-- A legal plain operation whose predicate is true has its effect: it has no check to fail and no entry to read. -/
theorem runSlot_plain {pred : State → Bool} (reads : List RegName) (writes : List (RegName × Option Nat))
    (effect : State → State) {i : Instr} {s : State} (hw : i.wellFormed = true)
    (hp : pred (s.inSlot i.slotKind) = true) :
    runSlot i (.plain pred reads writes effect) s = .next (effect (s.inSlot i.slotKind)) :=
  runSlot_of_runs (plain_runs reads writes effect hw hp)

/-- Naming the slot leaves the issuing berth and everything else. -/
theorem becomes_inSlot (s : State) (k : Option SlotKind) : Becomes s (.next (s.inSlot k)) s.me := by
  cases k <;>
    exact ⟨_, rfl, ⟨rfl, ⟨rfl, rfl, rfl⟩, fun _ _ => rfl, rfl, fun _ _ => rfl, fun _ => rfl, fun _ _ => rfl⟩, rfl⟩

/-! ### COP -/

/-- COP is legal with cfn 0x00 alone. -/
theorem cop_wellFormed (f : FCop) : Instr.wellFormed (.cop f) = (f.c == 0) := rfl

/-- The fields of COP stand above its opcode. -/
theorem cop_opcode (f : FCop) : (0x78 + f.place) % 128 = 0x78 := by
  simp only [FCop.place]; omega

/-- The trap of an illegal COP names its opcode (R272). -/
theorem State.illegal_cop (s : State) (f : FCop) : s.illegal (.cop f) = s.trap 0x02 0x78 := by
  have h : SlotKind.badOpcode .scalar (0x78 + f.place) = (0x78, 0) := congrArg (·, 0) (cop_opcode f)
  simp only [State.illegal, Instr.slotKind, encode, h]
  rfl

/-- Any other cfn traps ILLEGAL_OPCODE (R339). -/
theorem exec_cop_of_illegal (f : FCop) (s : State) (h : f.c ≠ 0) :
    exec (.cop f) s = .next ((s.inSlot (some .scalar)).takeTrap ((s.inSlot (some .scalar)).trap 0x02 0x78)) := by
  have hw : Instr.wellFormed (.cop f) = false := by simpa [cop_wellFormed] using h
  rw [exec_slot s rfl, runSlot_of_illegal _ s hw, State.illegal_cop]
  rfl

/-- With cfn 0x00, COP writes 0 where rep asks for the identifier and does nothing else. -/
theorem exec_cop_of_legal (f : FCop) (s : State) (h : f.c = 0) :
    exec (.cop f) s =
      .next (if f.r = 1 then (s.inSlot (some .scalar)).putG f.d 0 else s.inSlot (some .scalar)) := by
  have hw : Instr.wellFormed (.cop f) = true := by simp [cop_wellFormed, h]
  rw [exec_slot s rfl, semCop, runSlot_plain _ _ _ hw rfl]
  rfl

/-- The result of COP is a scalar register, interlocked, and is there with rep alone. -/
theorem semCop_writes (f : FCop) : (semCop f).writes = if f.r = 1 then [(rG f.d, none)] else [] := rfl

/-- Settles O17, by the two legal forms of COP, the illegal one, and its word. -/
theorem copNoCoprocessor : Obligations.CopNoCoprocessor := by
  refine ⟨fun f s hb hc hr => ?writes, fun f s _ hc hr => ?idles, exec_cop_of_illegal, fun f => ⟨rfl, fun hr => ?result⟩,
    by decide +kernel⟩
  case writes =>
    rw [exec_cop_of_legal f s hc, if_pos hr]
    exact writesG_putG s (some .scalar) f.d 0 hb
  case idles =>
    rw [exec_cop_of_legal f s hc, if_neg (by simp [hr])]
    exact becomes_inSlot s (some .scalar)
  case result => rw [semCop_writes, if_pos hr]; rfl

end Sys2Proof.Machine

/-! LIDX (R378): the value it reads, its two traps and its words, with the rules for an operation whose own checks decide. -/

namespace Sys2Proof.Machine

/-! ### An operation of a slot whose checks decide -/

/-- A legal operation whose predicate is true, that is not barred and whose checks trap, takes that trap (R264, R292). -/
theorem runSlot_of_trap {o : OpSem} {i : Instr} {s : State} {t : Trap} (hw : i.wellFormed = true)
    (hp : o.pred (s.inSlot i.slotKind) = true) (hq : o.priv (s.inSlot i.slotKind) = none)
    (hc : allChecks (o.check (s.inSlot i.slotKind)) = .trap t) :
    runSlot i o s = .next ((s.inSlot i.slotKind).takeTrap t) := by
  simp [runSlot, hw, hp, hq, hc, Verdict.andThen, State.refuseBundle]

/-- A legal operation whose predicate is true, that is not barred, whose checks pass and that has no entry to read or to append
runs. -/
theorem runs_of_check {o : OpSem} {i : Instr} {s : State} (hw : i.wellFormed = true)
    (hp : o.pred (s.inSlot i.slotKind) = true) (hq : o.priv (s.inSlot i.slotKind) = none)
    (hc : allChecks (o.check (s.inSlot i.slotKind)) = .pass) (hs : o.sources (s.inSlot i.slotKind) = [])
    (ha : o.appends (s.inSlot i.slotKind) = []) : o.runs i s = true := by
  simp [OpSem.runs, hw, hp, hq, hc, hs, ha]

/-- A list of one check decides as that check. -/
@[simp] theorem allChecks_singleton (v : Verdict) : allChecks [v] = v := rfl

/-! ### The words of LIDX -/

/-- LIDX is legal at the levels 0 to 5 alone. -/
theorem lidx_wellFormed (f : FLidx) : Instr.wellFormed (.lidx f) = decide (f.i.toNat ≤ 5) := rfl

/-- A LIDX of a level up to 5 is legal. -/
theorem lidx_legal {f : FLidx} (h : f.i.toNat ≤ 5) : Instr.wellFormed (.lidx f) = true :=
  (lidx_wellFormed f).trans (decide_eq_true h)

/-- The fields of LIDX, and whatever stands in ra, leave its opcode. -/
theorem lidx_opcode (f : FLidx) (r : Nat) : (0x6F + f.place + r * 2 ^ 12) % 128 = 0x6F := by
  simp only [FLidx.place]; omega

/-- The fields of LIDX are read back from its word, whatever stands in ra. -/
theorem FLidx.read_place (f : FLidx) {r : Nat} (hr : r < 32) : FLidx.read (0x6F + f.place + r * 2 ^ 12) = f := by
  obtain ⟨d, p, i⟩ := f
  have hd := d.isLt
  have hp := p.isLt
  have hi := i.isLt
  simp only [FLidx.read, FLidx.place, FLidx.mk.injEq]
  refine ⟨?_, ?_, ?_⟩ <;> apply BitVec.eq_of_toNat_eq <;> rw [BitVec.toNat_ofNat] <;> omega

/-- A scalar word with the opcode of LIDX is the one that its fields make up, or no operation. -/
theorem scalarOp_lidx {w : Nat} (h : w % 128 = 0x6F) :
    scalarOp w = takeFields w 0x6F .lidx FLidx.read FLidx.place := by
  simp only [scalarOp, h]

/-- A word of LIDX is accepted with ra zero and a level up to 5 alone (R378). -/
theorem decodeSlot_lidx (f : FLidx) {r : Nat} (hr : r < 32) :
    decodeSlot .scalar (0x6F + f.place + r * 2 ^ 12) = if r = 0 ∧ f.i.toNat ≤ 5 then some [.lidx f] else none := by
  have hw : 0x6F + f.place = 0x6F + f.place + r * 2 ^ 12 ↔ r = 0 := by omega
  rw [decodeSlot, scalarOp_lidx (lidx_opcode f r), takeFields, FLidx.read_place f hr]
  simp only [hw]
  by_cases h0 : r = 0
  · simp [h0, lidx_wellFormed]
  · simp [h0]

/-- The trap of an illegal LIDX names its opcode (R272). -/
theorem State.illegal_lidx (s : State) (f : FLidx) : s.illegal (.lidx f) = s.trap 0x02 0x6F := by
  have ho : (0x6F + f.place) % 128 = 0x6F := by simpa using lidx_opcode f 0
  have h : SlotKind.badOpcode .scalar (0x6F + f.place) = (0x6F, 0) := congrArg (·, 0) ho
  simp only [State.illegal, Instr.slotKind, encode, h]
  rfl

/-! ### The cases of LIDX -/

section
variable (f : FLidx) (s : State)

/-- The check of LIDX: the loop stack as it stands at the start of the bundle has an entry at the level. -/
theorem semLidx_check : (semLidx f).check s = [need (decide (f.i.toNat < s.iss.start.loops.length)) s.loopDepth] := rfl

/-- A level above 5 traps ILLEGAL_OPCODE. -/
theorem exec_lidx_of_illegal (h : 6 ≤ f.i.toNat) :
    exec (.lidx f) s = .next ((s.inSlot (some .scalar)).takeTrap ((s.inSlot (some .scalar)).trap 0x02 0x6F)) := by
  have hw : Instr.wellFormed (.lidx f) = false :=
    (lidx_wellFormed f).trans (decide_eq_false (Nat.not_le.mpr h))
  rw [exec_slot s rfl, runSlot_of_illegal _ s hw, State.illegal_lidx]
  rfl

/-- LIDX whose predicate is false does nothing. -/
theorem exec_lidx_of_pred (h : f.i.toNat ≤ 5) (hp : s.predIs f.p 0 = false) :
    exec (.lidx f) s = .next (s.inSlot (some .scalar)) := by
  rw [exec_slot s rfl]
  exact runSlot_of_pred (lidx_legal h) ((s.inSlot_predIs _ _ _).trans hp)

/-- A level at or above the depth of the loop stack traps LOOP_DEPTH with the depth. -/
theorem exec_lidx_of_depth (h : f.i.toNat ≤ 5) (hp : s.predIs f.p 0 = true)
    (hd : s.iss.start.loops.length ≤ f.i.toNat) :
    exec (.lidx f) s = .next ((s.inSlot (some .scalar)).takeTrap
      ((s.inSlot (some .scalar)).trap 0x1A s.iss.start.loops.length)) := by
  rw [exec_slot s rfl]
  refine runSlot_of_trap (lidx_legal h) ((s.inSlot_predIs _ _ _).trans hp) rfl ?_
  simp [semLidx_check, Nat.not_lt.mpr hd, State.loopDepth, tLoopDepth, Instr.slotKind]

variable {f s}

/-- LIDX of a level with an entry runs. -/
theorem lidx_runs (h : f.i.toNat ≤ 5) (hp : s.predIs f.p 0 = true) (hd : f.i.toNat < s.iss.start.loops.length) :
    (semLidx f).runs (.lidx f) s = true := by
  refine runs_of_check (lidx_legal h) ((s.inSlot_predIs _ _ _).trans hp) rfl ?_ rfl rfl
  simp [semLidx_check, hd]

/-- The effect of LIDX: the index of the entry at the level goes to rd. -/
theorem semLidx_perform {e : LoopEntry} (he : s.iss.start.loops[f.i.toNat]? = some e) :
    (semLidx f).perform s = s.putG f.d (e.index.setWidth 64) := by
  simp [OpSem.perform, semLidx, OpSem.plain, he]

/-- LIDX writes the index of the entry at its level, zero-extended. -/
theorem exec_lidx_of_entry {e : LoopEntry} (h : f.i.toNat ≤ 5) (hp : s.predIs f.p 0 = true)
    (he : s.iss.start.loops[f.i.toNat]? = some e) :
    exec (.lidx f) s = .next ((s.inSlot (some .scalar)).putG f.d (.ofNat 64 e.index.toNat)) := by
  obtain ⟨hd, -⟩ := List.getElem?_eq_some_iff.mp he
  have he' : (s.inSlot (some .scalar)).iss.start.loops[f.i.toNat]? = some e := he
  rw [exec_slot s rfl, runSlot_of_runs (lidx_runs h hp hd), BitVec.ofNat_toNat]
  exact congrArg _ (semLidx_perform he')

end

/-- Settles O16, by the four cases of LIDX and the words it accepts. -/
theorem lidxReadsIndex : Obligations.LidxReadsIndex := by
  refine ⟨fun f s e hb h hp he => ?entry, exec_lidx_of_depth, exec_lidx_of_pred,
    fun f h => ⟨?level, fun s => exec_lidx_of_illegal f s h⟩, fun f => rfl, fun f r h0 hr => ?ra, ?word⟩
  case entry =>
    rw [exec_lidx_of_entry h hp he]
    exact writesG_putG s (some .scalar) f.d _ hb
  case level => simpa [Nat.not_le.mpr h] using decodeSlot_lidx f (r := 0) (by decide)
  case ra => rw [decodeSlot_lidx f hr, if_neg (by omega)]
  case word => exact decodeSlot_lidx ⟨5, 0, 2⟩ (r := 0) (by decide)

end Sys2Proof.Machine

/-! Plain scalar operations: the word of an operation by its form (R292), and what an operation of one or two scalar sources
does (R322). -/

namespace Sys2Proof.Machine

/-! ### The words of a slot with one operation -/

/-- The operation of a scalar word is the one of the opcode table, where it is legal (R289). -/
theorem decodeSlot_scalar (w : Nat) :
    decodeSlot .scalar w = ((scalarOp w).filter Instr.wellFormed).map ([·]) := by
  cases h : scalarOp w <;> simp [decodeSlot, h, Option.filter, apply_ite]

/-- The operation of a matrix word is the one of the opcode table, where it is legal (R289). -/
theorem decodeSlot_matrix (w : Nat) :
    decodeSlot .matrix w = ((matrixOp w).filter Instr.wellFormed).map ([·]) := by
  cases h : matrixOp w <;> simp [decodeSlot, h, Option.filter, apply_ite]

/-- The operation of an engine word is the one of the opcode table, where it is legal (R289). -/
theorem decodeSlot_engine (w : Nat) :
    decodeSlot .engine w = ((engineOp w).filter Instr.wellFormed).map ([·]) := by
  cases h : engineOp w <;> simp [decodeSlot, h, Option.filter, apply_ite]

/-- The operation of a pack word is the one of the opcode table, where it is legal (R289). -/
theorem decodeSlot_pack (w : Nat) :
    decodeSlot .pack w = ((packOp w).filter Instr.wellFormed).map ([·]) := by
  cases h : packOp w <;> simp [decodeSlot, h, Option.filter, apply_ite]

/-- A form accepts the words that its fields make up, and reads its operation from the fields. -/
theorem takeFields_eq_some {α : Type} {w op : Nat} {mk : α → Instr} {rd : Nat → α} {place : α → Nat} {i : Instr} :
    takeFields w op mk rd place = some i ↔ op + place (rd w) = w ∧ mk (rd w) = i := by
  simp [takeFields]

/-- A form without fields accepts its own word alone. -/
theorem takePlain_eq_some {w op : Nat} {i j : Instr} : takePlain w op i = some j ↔ op = w ∧ i = j := by
  simp [takePlain]

/-- The fields of the SR format are read back from its word, whatever stands in fn. -/
theorem SR3.read_place (f : SR3) {op : Nat} (ho : op < 128) (fn : Nat) :
    SR3.read (op + f.place + fn * 2 ^ 26) = f := by
  obtain ⟨d, a, b, p, n⟩ := f
  have hd := d.isLt
  have ha := a.isLt
  have hb := b.isLt
  have hp := p.isLt
  have hn := n.isLt
  simp only [SR3.read, SR3.place, SR3.mk.injEq]
  refine ⟨?_, ?_, ?_, ?_, ?_⟩ <;> apply BitVec.eq_of_toNat_eq <;> rw [BitVec.toNat_ofNat] <;> omega

/-- The fields of the SR format with one source are read back from its word, whatever stands in rb and fn. -/
theorem SR2.read_place (f : SR2) {op b : Nat} (ho : op < 128) (hb : b < 32) (fn : Nat) :
    SR2.read (op + f.place + b * 2 ^ 17 + fn * 2 ^ 26) = f := by
  obtain ⟨d, a, p, n⟩ := f
  have hd := d.isLt
  have ha := a.isLt
  have hp := p.isLt
  have hn := n.isLt
  simp only [SR2.read, SR2.place, SR2.mk.injEq]
  refine ⟨?_, ?_, ?_, ?_⟩ <;> apply BitVec.eq_of_toNat_eq <;> rw [BitVec.toNat_ofNat] <;> omega

/-- A word of an operation of two scalar sources is accepted with fn zero alone (R292, R322). -/
theorem decodeSlot_sr3 {op : Nat} {mk : SR3 → Instr} (ho : op < 128)
    (hop : ∀ w, w % 128 = op → scalarOp w = takeFields w op mk SR3.read SR3.place)
    (hw : ∀ f, (mk f).wellFormed = true) (f : SR3) (fn : Nat) :
    decodeSlot .scalar (op + f.place + fn * 2 ^ 26) = if fn = 0 then some [mk f] else none := by
  have hmod : (op + f.place + fn * 2 ^ 26) % 128 = op := by simp only [SR3.place]; omega
  have hfn : op + f.place = op + f.place + fn * 2 ^ 26 ↔ fn = 0 := by omega
  rw [decodeSlot_scalar, hop _ hmod, takeFields, SR3.read_place f ho]
  simp only [hfn]
  split <;> simp [hw]

/-- A word of an operation of one scalar source is accepted with rb and fn zero alone (R292, R322). -/
theorem decodeSlot_sr2 {op b : Nat} {mk : SR2 → Instr} (ho : op < 128)
    (hop : ∀ w, w % 128 = op → scalarOp w = takeFields w op mk SR2.read SR2.place)
    (hw : ∀ f, (mk f).wellFormed = true) (f : SR2) (hb : b < 32) (fn : Nat) :
    decodeSlot .scalar (op + f.place + b * 2 ^ 17 + fn * 2 ^ 26) = if b + fn = 0 then some [mk f] else none := by
  have hmod : (op + f.place + b * 2 ^ 17 + fn * 2 ^ 26) % 128 = op := by simp only [SR2.place]; omega
  have hz : op + f.place = op + f.place + b * 2 ^ 17 + fn * 2 ^ 26 ↔ b + fn = 0 := by omega
  rw [decodeSlot_scalar, hop _ hmod, takeFields, SR2.read_place f ho hb]
  simp only [hz]
  split <;> simp [hw]

/-! ### Operations of one and of two scalar sources -/

section
variable {i : Instr} {s : State}

/-- A legal operation of two scalar sources writes its result (R322). -/
theorem writesG_alu3 {f : SR3} {lat : Option Nat} {op : Word → Word → Word} {v : Word}
    (hi : Instr.sem i = some (alu3 f lat op)) (hw : i.wellFormed = true) (hb : s.iss.berth < 8)
    (hp : s.predIs f.p f.n = true) (hv : op (s.srcG f.a) (s.srcG f.b) = v) : WritesG s (exec i s) f.d v := by
  rw [exec_slot s hi, alu3, runSlot_plain _ _ _ hw ((s.inSlot_predIs _ _ _).trans hp), s.inSlot_srcG, s.inSlot_srcG, hv]
  exact writesG_putG s i.slotKind f.d v hb

/-- A legal operation of one scalar source writes its result (R322). -/
theorem writesG_alu2 {f : SR2} {op : Word → Word} {v : Word} (hi : Instr.sem i = some (alu2 f op))
    (hw : i.wellFormed = true) (hb : s.iss.berth < 8) (hp : s.predIs f.p f.n = true) (hv : op (s.srcG f.a) = v) :
    WritesG s (exec i s) f.d v := by
  rw [exec_slot s hi, alu2, runSlot_plain _ _ _ hw ((s.inSlot_predIs _ _ _).trans hp), s.inSlot_srcG, hv]
  exact writesG_putG s i.slotKind f.d v hb

/-- A legal operation of two scalar sources whose predicate is false does nothing (R292). -/
theorem exec_alu3_of_pred {f : SR3} {lat : Option Nat} {op : Word → Word → Word}
    (hi : Instr.sem i = some (alu3 f lat op)) (hw : i.wellFormed = true) (hp : s.predIs f.p f.n = false) :
    exec i s = .next (s.inSlot i.slotKind) :=
  (exec_slot s hi).trans (runSlot_of_pred hw ((s.inSlot_predIs _ _ _).trans hp))

/-- A legal operation of one scalar source whose predicate is false does nothing (R292). -/
theorem exec_alu2_of_pred {f : SR2} {op : Word → Word} (hi : Instr.sem i = some (alu2 f op))
    (hw : i.wellFormed = true) (hp : s.predIs f.p f.n = false) : exec i s = .next (s.inSlot i.slotKind) :=
  (exec_slot s hi).trans (runSlot_of_pred hw ((s.inSlot_predIs _ _ _).trans hp))

end

end Sys2Proof.Machine

/-! MIN, MAX, MINN and MAXN (R384): the smaller or the larger source, signed or unsigned, and their words. -/

namespace Sys2Proof.Machine

/-! ### The selected source is the minimum or the maximum -/

section
variable {α : Type} [LinearOrder α] {val : Word → α} {word : α → Word}

/-- Of two words compared by their values, the one selected as the smaller is the word of the minimum. -/
theorem select_eq_min (h : Function.LeftInverse word val) (a b : Word) :
    (if val a ≤ val b then a else b) = word (min (val a) (val b)) := by
  rw [min_def, apply_ite word, h, h]

/-- Of two words compared by their values, the one selected as the larger is the word of the maximum. -/
theorem select_eq_max (h : Function.LeftInverse word val) (a b : Word) :
    (if val a ≤ val b then b else a) = word (max (val a) (val b)) := by
  rw [max_def, apply_ite word, h, h]

end

/-- A word is the word of its signed value. -/
theorem ofInt_leftInverse_toInt : Function.LeftInverse (BitVec.ofInt 64) BitVec.toInt := fun _ => BitVec.ofInt_toInt

/-- A word is the word of its unsigned value. -/
theorem ofNat_leftInverse_toNat : Function.LeftInverse (BitVec.ofNat 64) BitVec.toNat := fun x =>
  (BitVec.ofNat_toNat 64 x).trans (BitVec.setWidth_eq x)

/-! ### Their words -/

section
variable (f : SR3) (fn : Nat)

/-- A word of MIN is accepted with fn zero alone, and so are those of the other three (R384). -/
theorem decodeSlot_min : decodeSlot .scalar (0x12 + f.place + fn * 2 ^ 26) = if fn = 0 then some [.min_ f] else none :=
  decodeSlot_sr3 (by decide) (fun w h => by simp only [scalarOp, h]) (fun _ => rfl) f fn

theorem decodeSlot_max : decodeSlot .scalar (0x13 + f.place + fn * 2 ^ 26) = if fn = 0 then some [.max_ f] else none :=
  decodeSlot_sr3 (by decide) (fun w h => by simp only [scalarOp, h]) (fun _ => rfl) f fn

theorem decodeSlot_minn : decodeSlot .scalar (0x14 + f.place + fn * 2 ^ 26) = if fn = 0 then some [.minn f] else none :=
  decodeSlot_sr3 (by decide) (fun w h => by simp only [scalarOp, h]) (fun _ => rfl) f fn

theorem decodeSlot_maxn : decodeSlot .scalar (0x15 + f.place + fn * 2 ^ 26) = if fn = 0 then some [.maxn f] else none :=
  decodeSlot_sr3 (by decide) (fun w h => by simp only [scalarOp, h]) (fun _ => rfl) f fn

end

/-- Settles O8, by the rules for an operation of two scalar sources and the words that each of the four accepts. -/
theorem minMax : Obligations.MinMax := by
  refine ⟨fun f s hb hp => ⟨?min, ?max, ?minn, ?maxn⟩, fun f => ⟨rfl, rfl, rfl, rfl⟩, fun f s hp i hi => ?idles,
    decodeSlot_min ⟨5, 6, 7, 0, 0⟩ 0, decodeSlot_max ⟨5, 6, 7, 0, 0⟩ 0, decodeSlot_minn ⟨5, 6, 7, 0, 0⟩ 0,
    decodeSlot_maxn ⟨5, 6, 7, 0, 0⟩ 0, fun f fn _ hfn op hop => ?fn⟩
  case min => exact writesG_alu3 rfl rfl hb hp (select_eq_min ofInt_leftInverse_toInt _ _)
  case max => exact writesG_alu3 rfl rfl hb hp (select_eq_max ofInt_leftInverse_toInt _ _)
  case minn => exact writesG_alu3 rfl rfl hb hp (select_eq_min ofNat_leftInverse_toNat _ _)
  case maxn => exact writesG_alu3 rfl rfl hb hp (select_eq_max ofNat_leftInverse_toNat _ _)
  case idles =>
    simp only [List.mem_cons, List.not_mem_nil, or_false] at hi
    obtain rfl | rfl | rfl | rfl := hi <;> exact exec_alu3_of_pred rfl rfl hp
  case fn =>
    have h0 : fn ≠ 0 := by omega
    simp only [List.mem_cons, List.not_mem_nil, or_false] at hop
    obtain rfl | rfl | rfl | rfl := hop
    · rw [decodeSlot_min, if_neg h0]
    · rw [decodeSlot_max, if_neg h0]
    · rw [decodeSlot_minn, if_neg h0]
    · rw [decodeSlot_maxn, if_neg h0]

end Sys2Proof.Machine

/-! POPC (R403): the number of set bits, and its words. -/

namespace Sys2Proof.Machine

/-- The count that POPC writes is the number of the places whose bit is set. -/
theorem popc64_eq (a : Word) : popc64 a = .ofNat 64 ((List.range 64).filter fun i => a.getLsbD i).length := by
  rw [popc64, List.countP_eq_length_filter]

/-- A word of POPC is accepted with rb and fn zero alone (R403). -/
theorem decodeSlot_popc (f : SR2) {b : Nat} (hb : b < 32) (fn : Nat) :
    decodeSlot .scalar (0x17 + f.place + b * 2 ^ 17 + fn * 2 ^ 26) = if b + fn = 0 then some [.popc f] else none :=
  decodeSlot_sr2 (by decide) (fun w h => by simp only [scalarOp, h]) (fun _ => rfl) f hb fn

/-- Settles O10, by the rules for an operation of one scalar source and the words that POPC accepts. -/
theorem popcCountsBits : Obligations.PopcCountsBits := by
  refine ⟨fun f s hb hp => writesG_alu2 rfl rfl hb hp (popc64_eq _), fun f s hp => exec_alu2_of_pred rfl rfl hp,
    fun f => rfl, decodeSlot_popc ⟨5, 6, 0, 0⟩ (b := 0) (by decide) 0, fun f b fn hb _ hz => ?fields⟩
  rw [decodeSlot_popc f hb fn, if_neg (by omega)]

end Sys2Proof.Machine

/-! NOP (R396): its word and its want of effect, PASS in the V slot, and the reserved opcode 0 of the M, E and U slots. -/

namespace Sys2Proof.Machine

/-- NOP leaves everything but the name of the slot. -/
theorem exec_nop (s : State) : exec .nop s = .next (s.inSlot (some .scalar)) := by
  rw [exec_slot s rfl, semNop, runSlot_plain _ _ _ rfl rfl]
  rfl

/-- The opcode table gives NOP to the word 0 alone: every other arm makes another operation of its fields, or none. -/
theorem scalarOp_eq_nop {w : Nat} : scalarOp w = some .nop ↔ w = 0 := by
  refine ⟨fun h => ?_, fun h => by rw [h]; rfl⟩
  unfold scalarOp at h
  split at h
  case h_1 => exact (takePlain_eq_some.mp h).1.symm
  all_goals simp [takeFields_eq_some, takePlain_eq_some] at h

/-- The scalar slot reads NOP from the word 0 alone. -/
theorem decodeSlot_eq_nop {w : Nat} : decodeSlot .scalar w = some [.nop] ↔ w = 0 := by
  have hw : Instr.wellFormed .nop = true := rfl
  rw [decodeSlot_scalar, ← scalarOp_eq_nop]
  simp [Option.filter_eq_some_iff, hw]

/-- Opcode 0 of a V stage is PASS. -/
theorem vStageOp_zero {w : VSlot} {st : VStage} (h : w.op st = 0) : vStageOp st w = some (.pass_ st w) := by
  simp only [vStageOp, h]

/-- Opcode 0 of the M slot is reserved. -/
theorem matrixOp_zero {w : Nat} (h : w % 16 = 0) : matrixOp w = none := by simp only [matrixOp, h]

/-- Opcode 0 of the E slot is reserved. -/
theorem engineOp_zero {w : Nat} (h : w % 32 = 0) : engineOp w = none := by simp only [engineOp, h]

/-- Opcode 0 of the U slot is reserved. -/
theorem packOp_zero {w : Nat} (h : w % 32 = 0) : packOp w = none := by simp only [packOp, h]

/-- Settles O14, by the opcode 0 of each slot. -/
theorem nopDoesNothing : Obligations.NopDoesNothing := by
  refine ⟨fun s => ?idles, decodeSlot_eq_nop.mpr rfl, fun w => decodeSlot_eq_nop.mp, fun w st => vStageOp_zero,
    fun w h => ?matrix, fun w h => ⟨?engine, ?pack⟩⟩
  case idles =>
    rw [exec_nop]
    exact becomes_inSlot s (some .scalar)
  case matrix => rw [decodeSlot_matrix, matrixOp_zero h]; rfl
  case engine => rw [decodeSlot_engine, engineOp_zero h]; rfl
  case pack => rw [decodeSlot_pack, packOp_zero h]; rfl

end Sys2Proof.Machine

/-! SEL (R419): the predicate selects between its two sources, and its words. -/

namespace Sys2Proof.Machine

/-- k0 reads true (R30). -/
@[simp] theorem State.srcK_zero (s : State) : s.srcK 0 = true := rfl

/-- Under k0 a slot predicate is true exactly where it is not negated (R292). -/
theorem State.predIs_zero (s : State) (n : BitVec 1) : s.predIs 0 n = !(n == 1) := by
  rw [State.predIs, State.srcK_zero, Bool.true_bne]

/-- SEL writes the source that its predicate selects, whether that predicate is true or false (R419). -/
theorem exec_sel (f : SR3) (s : State) :
    exec (.sel_ f) s =
      .next ((s.inSlot (some .scalar)).putG f.d (if s.predIs f.p f.n then s.srcG f.a else s.srcG f.b)) := by
  rw [exec_slot s rfl, semSel, runSlot_plain _ _ _ rfl rfl]
  simp only [State.inSlot_predIs, State.inSlot_srcG]
  rfl

/-- The result of SEL is the selected source, and nothing else changes. -/
theorem writesG_sel {f : SR3} {s : State} {v : Word} (hb : s.iss.berth < 8)
    (hv : (if s.predIs f.p f.n then s.srcG f.a else s.srcG f.b) = v) : WritesG s (exec (.sel_ f) s) f.d v := by
  rw [exec_sel, hv]
  exact writesG_putG s (some .scalar) f.d v hb

/-- A word of SEL is accepted with fn zero alone (R419). -/
theorem decodeSlot_sel (f : SR3) (fn : Nat) :
    decodeSlot .scalar (0x18 + f.place + fn * 2 ^ 26) = if fn = 0 then some [.sel_ f] else none :=
  decodeSlot_sr3 (by decide) (fun w h => by simp only [scalarOp, h]) (fun _ => rfl) f fn

/-- Settles O13, by the selection that SEL makes under any predicate, k0 and its negation among them, and the words it accepts. -/
theorem selSelects : Obligations.SelSelects := by
  refine ⟨fun f s hb => ⟨?selects, fun hp hn => ?first, fun hp hn => ?second⟩, fun f => rfl,
    decodeSlot_sel ⟨5, 6, 7, 2, 0⟩ 0, decodeSlot_sel ⟨5, 6, 7, 2, 1⟩ 0, fun f fn _ hfn => ?fn⟩
  case selects => exact writesG_sel hb rfl
  case first => exact writesG_sel hb (by rw [hp, hn, s.predIs_zero]; rfl)
  case second => exact writesG_sel hb (by rw [hp, hn, s.predIs_zero]; rfl)
  case fn => rw [decodeSlot_sel, if_neg (by omega)]

end Sys2Proof.Machine
